-- ==== Sys2Proof/Word.lean ====
section
/-! DEFINITION. The words and records of the engine: bytes, binary64 words, coordinates, the operand bus,
the result bus and the command a host issues. -/

namespace Sys2Proof

/-- A byte, 0..255 (00_scope.md R9). -/
abbrev Byte := BitVec 8

/-- A binary64 value as its 64 bits (00_scope.md R13). -/
abbrev Binary64 := BitVec 64

/-- A command word (30_encoding.md R78). -/
abbrev CmdWord := BitVec 32

/-- A WGS84 coordinate: three signed 32-bit fixed-point integers (10_state.md R31). -/
structure Wgs84 where
  lat : BitVec 32
  lon : BitVec 32
  alt : BitVec 32
  deriving DecidableEq, Repr, Inhabited

/-- Local east, north, up, each a binary64 number of metres (30_encoding.md R79, R80). -/
structure Enu where
  east : Binary64
  north : Binary64
  up : Binary64
  deriving DecidableEq, Repr, Inhabited

/-- The Persisted Solution State: three signed 16-bit fields (10_state.md R28). -/
structure Pss where
  fixState : BitVec 16
  satelliteCount : BitVec 16
  directionFixState : BitVec 16
  deriving DecidableEq, Repr, Inhabited

/-- The operand bus ARG (30_encoding.md R79). -/
structure Arg where
  now : BitVec 64
  p : Wgs84
  o : Wgs84
  e : Enu
  deriving DecidableEq, Repr, Inhabited

/-- The result bus RES (30_encoding.md R80). -/
structure Res where
  err : Bool
  kind : BitVec 2
  st : Pss
  enu : Enu
  dir : Binary64
  wbase : BitVec 6
  wlen : BitVec 6
  pos : Wgs84
  word : BitVec 32
  deriving DecidableEq, Repr, Inhabited

/-- One command as the host issues it: its word, and the operand bus driven with it (R78, R79). -/
structure Command where
  word : CmdWord
  arg : Arg
  deriving DecidableEq, Repr, Inhabited

/-- The index b of a frame buffer: 0 is buffer A, 1 is buffer B (10_state.md R22). -/
inductive BufId where
  | zero
  | one
  deriving DecidableEq, Repr, Inhabited

/-- `1 − b` (10_state.md R24). -/
def BufId.other : BufId → BufId
  | .zero => .one
  | .one => .zero

/-- The index as the one-bit number the STATUS word shows (10_state.md R30). -/
def BufId.bit : BufId → Bool
  | .zero => false
  | .one => true

end Sys2Proof
end

