-- ==== Sys2Proof/Config.lean ====
section
/-! DEFINITION. What an instance of the engine fixes (00_scope.md R8) and the free values the spec leaves
open. A constant with no body is OPEN: nothing here says what it is. -/

namespace Sys2Proof

/-- FIELD_BYTE_ORDER (20_memory.md R54). -/
inductive ByteOrder where
  | little
  | big
  deriving DecidableEq, Repr, Inhabited

/-- HEADING_SIGN: the sign of the 90° term (41_decoder.md R149). -/
inductive HeadingSign where
  | plus
  | minus
  deriving DecidableEq, Repr, Inhabited

/-- The binary64 functions COS, SIN, TAN, ATAN and HYP of the configuration (42_geodetic.md R185, R191). -/
structure MathLib where
  cos : Binary64 → Binary64
  sin : Binary64 → Binary64
  tan : Binary64 → Binary64
  atan : Binary64 → Binary64
  hyp : Binary64 → Binary64 → Binary64
  deriving Inhabited

/-- How far MIN_INTERVAL_US lies above 25000: OPEN (log 9). -/
opaque Config.minIntervalTune : Fin 15001

/-- MIN_INTERVAL_US, in 25000..40000 (R8, 92_eei_decisions.md D12; log 9). -/
def Config.minIntervalUs : Nat := 25000 + Config.minIntervalTune.val

/-- HEADING_SIGN: OPEN (D17; log 10). -/
opaque Config.headingSign : HeadingSign

/-- REF_DEFAULT: OPEN (D19; log 11). -/
opaque Config.refDefault : Wgs84

/-- FIELD_BYTE_ORDER, which the spec sets to LITTLE (R8, D5; log 12). -/
def Config.fieldByteOrder : ByteOrder := .little

/-- ALT_LSB_M, metres per LSB, which the spec sets to 1e-7 (R8, D20; log 13). -/
def Config.altLsbM : ℚ := mkRat 1 10000000

/-- HAS_FROM_ENU, which the spec sets to true (R8, D21; log 14). -/
def Config.hasFromEnu : Bool := true

/-- The library behind XF and INV: OPEN (42_geodetic.md R189; log 15). -/
opaque Config.lib : MathLib

/-- XF(p, o).east where the spec fixes no value: OPEN (R189; log 15). -/
opaque Config.xfEast : Wgs84 → Wgs84 → Binary64

/-- XF(p, o).north where the spec fixes no value: OPEN (R189; log 15). -/
opaque Config.xfNorth : Wgs84 → Wgs84 → Binary64

/-- The tolerance XF_TOL_M, in metres: OPEN (R189; log 15). -/
opaque Config.xfTolM : ℚ

/-- INV: OPEN (42_geodetic.md R194; log 16). -/
opaque Config.inv : Enu → Wgs84 → Wgs84

/-- The bytes of a drawing of `any` bytes, by frame offset (93_implementation_defined.md rows 1 and 2; log 4). -/
opaque Config.freeByte : Nat → Nat → Byte

/-- What the result bus shows in a field no command drives (30_encoding.md R80; log 3). -/
opaque Config.freeRes : Nat → Res

/-- What the operand bus shows before the host first drives it (log 2). -/
opaque Config.freeArg : Arg

end Sys2Proof
end

