-- ==== Sys2Proof/Syntax.lean ====
section
/-! DEFINITION. The instructions: one constructor per row of spec/opcode_table.json, in the table's order. -/

namespace Sys2Proof

/-- The seven commands (30_encoding.md R81). IDX is 6 bits and DATA is 8 bits, unsigned (R78). -/
inductive Instr where
  /-- RESET (43_control.md R210). -/
  | reset
  /-- GETBUF (40_frame_buffer.md R104). -/
  | getbuf
  /-- WRBUF i, v (40_frame_buffer.md R105). -/
  | wrbuf (i : BitVec 6) (v : Byte)
  /-- NOTIFY n (41_decoder.md R140). -/
  | notify (n : BitVec 6)
  /-- TRANSFORM (42_geodetic.md R187). -/
  | transform
  /-- FROMENU (42_geodetic.md R192). -/
  | fromenu
  /-- RDSTAT (43_control.md R211). -/
  | rdstat
  deriving DecidableEq, Repr

end Sys2Proof
end

