-- ==== Sys2Proof/WellFormed.lean ====
section
/-! DEFINITION. Which instructions exist on an instance. Field widths are carried by the operand types, so
the one check is that FROMENU exists only with HAS_FROM_ENU (30_encoding.md R82). -/

namespace Sys2Proof

/-- Well-formed on an instance whose HAS_FROM_ENU is the argument. -/
def Instr.wfWith (hasFromEnu : Bool) : Instr → Bool
  | .reset => true
  | .getbuf => true
  | .wrbuf _ _ => true
  | .notify _ => true
  | .transform => true
  | .fromenu => hasFromEnu
  | .rdstat => true

/-- Well-formed on this instance. -/
def Instr.wf (i : Instr) : Bool := i.wfWith Config.hasFromEnu

end Sys2Proof
end

