-- ==== Sys2Proof/Decode.lean ====
section
/-! DEFINITION. Decoding a command word, total on all 32-bit words (30_encoding.md R77), the encoder written
from the opcode map (R78, R81), and the pseudo-instruction FEED (R86). -/

namespace Sys2Proof

/-- Why a command word is illegal (30_encoding.md R82). -/
inductive Illegal where
  /-- RSV ≠ 0. -/
  | reservedField
  /-- OP is 0x0 or 0x8..0xF. -/
  | reservedOp
  /-- IDX ≠ 0 where the command has none. -/
  | idxField
  /-- DATA ≠ 0 where the command has none. -/
  | dataField
  /-- OP is 0x6 and HAS_FROM_ENU is false. -/
  | noFromEnu
  deriving DecidableEq, Repr

/-- What a command word is: exactly one command, or illegal. -/
inductive Decoded where
  | legal (i : Instr)
  | illegal (why : Illegal)
  deriving DecidableEq, Repr

/-- OP, bits 31:28 (R78). -/
def opField (w : CmdWord) : BitVec 4 := w.extractLsb' 28 4

/-- RSV, bits 27:14 (R78). -/
def rsvField (w : CmdWord) : BitVec 14 := w.extractLsb' 14 14

/-- IDX, bits 13:8 (R78). -/
def idxField (w : CmdWord) : BitVec 6 := w.extractLsb' 8 6

/-- DATA, bits 7:0 (R78). -/
def dataField (w : CmdWord) : Byte := w.extractLsb' 0 8

/-- A command without DATA: illegal when the field is not 0. -/
def noData (w : CmdWord) (i : Instr) : Decoded :=
  if dataField w = 0 then .legal i else .illegal .dataField

/-- A command without IDX or DATA: illegal when either is not 0. -/
def noOperands (w : CmdWord) (i : Instr) : Decoded :=
  if idxField w = 0 then noData w i else .illegal .idxField

/-- `decode(w)` of 30_encoding.md R77 on an instance whose HAS_FROM_ENU is the argument. -/
def decodeWith (hasFromEnu : Bool) (w : CmdWord) : Decoded :=
  if rsvField w = 0 then
    match (opField w).toNat with
    | 1 => noOperands w .reset
    | 2 => noOperands w .getbuf
    | 3 => .legal (.wrbuf (idxField w) (dataField w))
    | 4 => noData w (.notify (idxField w))
    | 5 => noOperands w .transform
    | 6 => if hasFromEnu then noOperands w .fromenu else .illegal .noFromEnu
    | 7 => noOperands w .rdstat
    | _ => .illegal .reservedOp
  else .illegal .reservedField

/-- Decoding on this instance. -/
def decode (w : CmdWord) : Decoded := decodeWith Config.hasFromEnu w

/-- The word with code `op`, IDX `idx` and DATA `dat`, RSV 0 (R78). -/
def commandWord (op : BitVec 4) (idx : BitVec 6) (dat : Byte) : CmdWord := op ++ 0#14 ++ idx ++ dat

/-- The word of a command (R81). -/
def encode : Instr → CmdWord
  | .reset => commandWord 0x1#4 0#6 0#8
  | .getbuf => commandWord 0x2#4 0#6 0#8
  | .wrbuf i v => commandWord 0x3#4 i v
  | .notify n => commandWord 0x4#4 n 0#8
  | .transform => commandWord 0x5#4 0#6 0#8
  | .fromenu => commandWord 0x6#4 0#6 0#8
  | .rdstat => commandWord 0x7#4 0#6 0#8

/-- The match value of a command's row in the opcode map (R81). -/
def Instr.rowMatch : Instr → CmdWord
  | .reset => 0x10000000#32
  | .getbuf => 0x20000000#32
  | .wrbuf _ _ => 0x30000000#32
  | .notify _ => 0x40000000#32
  | .transform => 0x50000000#32
  | .fromenu => 0x60000000#32
  | .rdstat => 0x70000000#32

/-- The mask of a command's row in the opcode map (R81). -/
def Instr.rowMask : Instr → CmdWord
  | .reset => 0xFFFFFFFF#32
  | .getbuf => 0xFFFFFFFF#32
  | .wrbuf _ _ => 0xFFFFC000#32
  | .notify _ => 0xFFFFC0FF#32
  | .transform => 0xFFFFFFFF#32
  | .fromenu => 0xFFFFFFFF#32
  | .rdstat => 0xFFFFFFFF#32

/-- The instruction the decoder reads from `nbits` bits `w` of a command word, every bit above them 0;
nothing where it is illegal or longer than the one word a command has (R84). -/
def decodeTableWord (nbits w : Nat) : Option Instr :=
  if nbits ≤ 32 then
    match decode (BitVec.ofNat 32 (w % 2 ^ nbits)) with
    | .legal i => some i
    | .illegal _ => none
  else none

/-- The WRBUF commands of a FEED from window offset `i` on. -/
def feedWrites (arg : Arg) : Nat → List Byte → List Command
  | _, [] => []
  | i, v :: bs => ⟨encode (.wrbuf (BitVec.ofNat 6 i) v), arg⟩ :: feedWrites arg (i + 1) bs

/-- `FEED t, bytes` (R86): GETBUF, one WRBUF per byte, NOTIFY with NOW = t. The operand bus of `arg` stands
on every command, which ignores what it does not read (R79). -/
def feed (arg : Arg) (now : BitVec 64) (bytes : List Byte) : List Command :=
  ⟨encode .getbuf, arg⟩ :: (feedWrites arg 0 bytes ++
    [⟨encode (.notify (BitVec.ofNat 6 bytes.length)), { arg with now := now }⟩])

end Sys2Proof
end

