-- ==== Sys2Proof/Machine/State.lean ====
section
/-! DEFINITION. The state of the engine (10_state.md), plain data; the reasons a step could stop; the state
after reset. The fields port, arg, res and draws are the model's own: a step is a function of State alone, and
10_state.md R34 keeps the buses out of the engine's state. -/

namespace Sys2Proof.Machine

/-- Bytes by frame offset: the ones listed. A byte that is not listed is one whose value the spec leaves
unspecified, and it has no fixed value (log 4). -/
abbrev Memory := List Host.Cell

/-- The one form of a buffer's bytes: offsets strictly rising and below 63. -/
abbrev Memory.wf (m : Memory) : Prop :=
  m.Pairwise (fun x y => x.1 < y.1) ∧ ∀ c ∈ m, c.1 < 63

/-- One frame buffer b. -/
structure FrameBuffer where
  /-- FB[b]: the bytes with a value of their own (10_state.md R22). -/
  cells : Memory
  /-- The drawing that the unlisted bytes' free values come from (log 4). -/
  stamp : Nat
  /-- DEF[b][i] is bit i, model only (10_state.md R32). -/
  defined : BitVec 63
  /-- TAIL[b], held in 6 bits (10_state.md R23). -/
  tail : BitVec 6
  deriving DecidableEq, Repr

/-- The three errors of the command interface, each with its info (60_exceptions.md R232 to R236). -/
inductive CommandError where
  | illegalCmd
  | windowRange (i : BitVec 6)
  | countRange (n : BitVec 6)
  deriving DecidableEq, Repr

/-- An entry of the model's fault record (60_exceptions.md R233, R237). -/
inductive RecordedFault where
  /-- A command error was raised. -/
  | error (e : CommandError)
  /-- HOST_UNDEF(j): a NOTIFY reported frame offset j, whose DEF bit was 0. -/
  | hostUndef (j : Nat)
  deriving DecidableEq, Repr

/-- The machine. -/
structure State where
  /-- Frame buffer A: FB[0], DEF[0], TAIL[0] (10_state.md R22, R23, R32). -/
  bufA : FrameBuffer
  /-- Frame buffer B: FB[1], DEF[1], TAIL[1]. -/
  bufB : FrameBuffer
  /-- WHICH, the current buffer (R24). -/
  which : BufId
  /-- PSS (R28). -/
  pss : Pss
  /-- LAST_EMIT, microseconds (R29). -/
  lastEmit : BitVec 64
  /-- LAST_VALID (R29). -/
  lastValid : Bool
  /-- STATUS.ERR_ILLEGAL (R30). -/
  errIllegal : Bool
  /-- STATUS.ERR_WINDOW (R30). -/
  errWindow : Bool
  /-- STATUS.ERR_COUNT (R30). -/
  errCount : Bool
  /-- REF (R31). -/
  ref : Wgs84
  /-- The model's fault record, oldest first, never cleared (60_exceptions.md R233, R237; log 7). -/
  record : List RecordedFault
  /-- Model's own: the commands issued and not yet executed, oldest first (log 1). -/
  port : List Command
  /-- Model's own: ARG as the command being executed sampled it (log 2). -/
  arg : Arg
  /-- Model's own: RES as the last command left it (log 3). -/
  res : Res
  /-- Model's own: how many free values have been drawn (log 18). -/
  draws : Nat
  deriving DecidableEq, Repr

/-- The spec gives the engine no stop: "The engine never stops, and no rule leaves the model without a next
state" (93_implementation_defined.md Part 1). So no fault ends a run, and this type has no constructor; the
spec's errors and its HOST_UNDEF are entries of `State.record` (log 6). -/
inductive Fault
  deriving DecidableEq, Repr

/-- Why an instruction has no meaning. -/
inductive Refusal where
  /-- Raised by an arm of `exec` whose instruction has no meaning in the model: safe. No arm raises it. -/
  | notModelled (mnemonic : String)
  deriving DecidableEq, Repr

/-- An empty frame buffer: no byte defined, its bytes the drawing `stamp`. Reset leaves both buffers so
(43_control.md R210), and SWAP the one it recycles (41_decoder.md R143). -/
def FrameBuffer.blank (stamp : Nat) : FrameBuffer :=
  { cells := [], stamp := stamp, defined := 0#63, tail := 0#6 }

/-- The state at power-on, the one RESET leaves (10_state.md R35, 70_reset_and_hazards.md R261): the fault
record empty and no command issued yet. -/
def State.reset : State where
  bufA := FrameBuffer.blank 0
  bufB := FrameBuffer.blank 1
  which := .zero
  pss := ⟨0#16, 0#16, 0#16⟩
  lastEmit := 0#64
  lastValid := false
  errIllegal := false
  errWindow := false
  errCount := false
  ref := Config.refDefault
  record := []
  port := []
  arg := Config.freeArg
  res := Config.freeRes 0
  draws := 2

end Sys2Proof.Machine
end

