-- ==== Sys2Proof/Machine/Ops.lean ====
section
/-! DEFINITION. The named operations over the state: bytes of a frame buffer, the current and the filling
buffer, the DEF bits, driving the result bus, and raising an error. -/

namespace Sys2Proof.Machine

/-- The byte listed at an offset. -/
def Memory.read? : Memory → Nat → Option Byte
  | [], _ => none
  | c :: m, i => if c.1 = i then some c.2 else Memory.read? m i

/-- The bytes with `v` at offset `i`, the rest as before. -/
def Memory.write : Memory → Nat → Byte → Memory
  | [], i, v => [(i, v)]
  | c :: m, i, v =>
    if i < c.1 then (i, v) :: c :: m
    else if i = c.1 then (i, v) :: m
    else c :: Memory.write m i v

/-- `FB[b][i]`: the byte listed, or the free value of an unlisted one (10_state.md R22; log 4). -/
def FrameBuffer.byte (f : FrameBuffer) (i : Nat) : Byte :=
  match f.cells.read? i with
  | some v => v
  | none => Config.freeByte f.stamp i

/-- `FB[b][lo..hi)` (00_scope.md R10). -/
def FrameBuffer.slice (f : FrameBuffer) (lo hi : Nat) : List Byte :=
  (List.range (hi - lo)).map fun j => f.byte (lo + j)

/-- `DEF[b][i]` (10_state.md R32). -/
def FrameBuffer.isDef (f : FrameBuffer) (i : Nat) : Bool := f.defined.getLsbD i

/-- `FB[b][i] <- v; DEF[b][i] <- 1` (40_frame_buffer.md R105). -/
def FrameBuffer.write (f : FrameBuffer) (i : Nat) (v : Byte) : FrameBuffer :=
  { f with cells := f.cells.write i v, defined := f.defined ||| BitVec.twoPow 63 i }

/-- `TAIL[b] <- len`. -/
def FrameBuffer.setTail (f : FrameBuffer) (len : Nat) : FrameBuffer := { f with tail := BitVec.ofNat 6 len }

/-- `63 − TAIL[b]`, the length of the buffer's window (20_memory.md R50). -/
def FrameBuffer.windowLen (f : FrameBuffer) : Nat := 63 - f.tail.toNat

/-- Buffer `b`. -/
def State.buf (s : State) : BufId → FrameBuffer
  | .zero => s.bufA
  | .one => s.bufB

/-- The state with buffer `b` replaced. -/
def State.setBuf (s : State) (b : BufId) (f : FrameBuffer) : State :=
  { s with bufA := if b = .zero then f else s.bufA, bufB := if b = .one then f else s.bufB }

/-- The current buffer, CUR = WHICH (00_scope.md R14). -/
def State.cur (s : State) : FrameBuffer := s.buf s.which

/-- The filling buffer, FILL = 1 − WHICH (00_scope.md R14). -/
def State.fill (s : State) : FrameBuffer := s.buf s.which.other

/-- The state with the filling buffer replaced. -/
def State.setFill (s : State) (f : FrameBuffer) : State := s.setBuf s.which.other f

/-- A command drives the result bus, once, at its end: `drive` names the fields it drives, and every other
field shows a free value (30_encoding.md R80; log 3). -/
def State.respond (s : State) (drive : Res → Res) : State :=
  { s with res := drive (Config.freeRes s.draws), draws := s.draws + 1 }

/-- An entry at the end of the model's fault record. -/
def State.note (s : State) (r : RecordedFault) : State := { s with record := s.record ++ [r] }

/-- `raise E(info)` (60_exceptions.md R233): E's STATUS bit and RES.ERR are set, the error is recorded, and
nothing else changes. There is no trap and no return from one (R240, R241). -/
def State.raise (s : State) (e : CommandError) : State :=
  { (s.note (.error e)).respond (fun r => { r with err := true }) with
    errIllegal := s.errIllegal || (e matches .illegalCmd)
    errWindow := s.errWindow || (e matches .windowRange _)
    errCount := s.errCount || (e matches .countRange _) }

end Sys2Proof.Machine
end

