-- ==== Sys2Proof/Machine/Flags.lean ====
section
/-! DEFINITION. The STATUS word (10_state.md R30), the bit count of the status byte (00_scope.md R12), and
the rate gate's arithmetic (41_decoder.md R145, R146). -/

namespace Sys2Proof.Machine

/-- A flag as a 32-bit number. -/
def flagWord (b : Bool) : BitVec 32 := if b then 1#32 else 0#32

/-- The STATUS word (10_state.md R30, 43_control.md R211). -/
def State.statusWord (s : State) : BitVec 32 :=
  flagWord s.errIllegal ||| flagWord s.errWindow <<< 1 ||| flagWord s.errCount <<< 2
    ||| s.fill.tail.setWidth 32 <<< 8 ||| flagWord s.which.bit <<< 16 ||| flagWord s.lastValid <<< 17

/-- `popcount8(x)` (00_scope.md R12). -/
def popcount8 (x : Byte) : Nat := (List.range 8).countP fun i => x.getLsbD i

/-- `elapsed(now)`: 0 when `now` is before `last` (41_decoder.md R145). -/
def elapsed (now last : BitVec 64) : Nat := now.toNat - last.toNat

/-- GATE with the interval given (41_decoder.md R146). -/
def gate (interval : Nat) (lastValid : Bool) (lastEmit now : BitVec 64) : Bool :=
  !lastValid || decide (interval ≤ elapsed now lastEmit)

end Sys2Proof.Machine
end

