-- ==== Sys2Proof/Machine/Control.lean ====
section
/-! DEFINITION. The control commands RESET and RDSTAT (43_control.md). -/

namespace Sys2Proof.Machine

/-- Every element of the engine at its reset value, both buffers' bytes new drawings (43_control.md R210,
10_state.md R35). The fault record is not cleared (60_exceptions.md R233; log 7). -/
def State.restart (s : State) : State :=
  { s with
    bufA := FrameBuffer.blank s.draws
    bufB := FrameBuffer.blank (s.draws + 1)
    which := .zero
    pss := ⟨0#16, 0#16, 0#16⟩
    lastEmit := 0#64
    lastValid := false
    errIllegal := false
    errWindow := false
    errCount := false
    ref := Config.refDefault
    draws := s.draws + 1 }

/-- RESET (R210). -/
def execReset (s : State) : Host.Outcome State Fault Refusal :=
  .next (s.restart.respond fun r => { r with err := false })

/-- RDSTAT (R211). -/
def execRdstat (s : State) : Host.Outcome State Fault Refusal :=
  .next (s.respond fun r => { r with err := false, word := s.statusWord })

end Sys2Proof.Machine
end

