-- ==== Sys2Proof/Machine/FrameBuffer.lean ====
section
/-! DEFINITION. The Frame Buffer (40_frame_buffer.md): checksum, resynchronisation, verify, and the commands
GETBUF and WRBUF. -/

namespace Sys2Proof.Machine

/-- The magic header (30_encoding.md R72). -/
def magic : List Byte := [0xBD#8, 0xDB#8, 0x0B#8]

/-- `XOR(S)`: the left fold with seed 0 (00_scope.md R12). -/
def xorAll (bytes : List Byte) : Byte := bytes.foldl (· ^^^ ·) 0#8

/-- CHECK of a region (40_frame_buffer.md R100). -/
def check : List Byte → Bool
  | [] => true
  | [_] => true
  | [x, y] => x == y
  | x :: rest => x == xorAll rest

/-- FRAME_OK: region 1 is offsets 0..57, region 2 is offsets 58..62 (R102). -/
def FrameBuffer.frameOk (f : FrameBuffer) : Bool := check (f.slice 0 58) && check (f.slice 58 63)

/-- The header matches at position `p` of a buffer with end `e`, in full or as a trailing partial match
(30_encoding.md R72). -/
def FrameBuffer.headerAt (f : FrameBuffer) (p e : Nat) : Bool :=
  let k := min 3 (e - p)
  f.slice p (p + k) == magic.take k

/-- The earliest position of `[lo, e)` at which the header matches (R110). -/
def FrameBuffer.findHeader (f : FrameBuffer) (lo e : Nat) : Option Nat :=
  (List.range' lo (e - lo)).find? fun p => f.headerAt p e

/-- The DEF bits `[p, e)` moved to `[0, e − p)`, the others cleared (R111). -/
def shiftDef (d : BitVec 63) (p e : Nat) : BitVec 63 := (d <<< (63 - e)) >>> (63 - e + p)

/-- SHIFT: the bytes `[p, e)` and their DEF bits move to position 0; what they vacate is a new drawing of
free bytes (R111; log 4). -/
def FrameBuffer.shift (f : FrameBuffer) (p e draw : Nat) : FrameBuffer :=
  if p = 0 then f
  else { f with
    cells := (List.range (e - p)).map fun j => (j, f.byte (p + j))
    defined := shiftDef f.defined p e
    stamp := draw }

/-- DISCARD: every byte is a new drawing of free bytes, every DEF bit is cleared (R111). -/
def FrameBuffer.discard (f : FrameBuffer) (lo e draw : Nat) : FrameBuffer :=
  if lo < e then { f with cells := [], defined := 0#63, stamp := draw } else f

/-- RESYNC over `[lo, e)`: the buffer and the new fill length (R110). -/
def FrameBuffer.resync (f : FrameBuffer) (lo e draw : Nat) : FrameBuffer × Nat :=
  match f.findHeader lo e with
  | some p => (f.shift p e draw, e - p)
  | none => (f.discard lo e draw, 0)

/-- VERIFY, step 1: resync while the header is not yet confirmed, else accept the length (R115). -/
def FrameBuffer.assemble (f : FrameBuffer) (n draw : Nat) : FrameBuffer × Nat :=
  let e := f.tail.toNat + n
  if f.tail.toNat < 3 then f.resync 0 e draw else (f, e)

/-- VERIFY, step 2: a full buffer that fails FRAME_OK is rescanned from offset 3 (R115). -/
def FrameBuffer.recheck (f : FrameBuffer) (len draw : Nat) : FrameBuffer × Nat :=
  if len = 63 ∧ f.frameOk = false then f.resync 3 63 draw else (f, len)

/-- VERIFY: the buffer after it, and whether a verified frame is ready (R115). At most one of its resyncs
draws free bytes, so one drawing serves both. -/
def FrameBuffer.verify (f : FrameBuffer) (n draw : Nat) : FrameBuffer × Bool :=
  let r := f.assemble n draw
  let r := r.1.recheck r.2 draw
  (r.1.setTail r.2, r.2 == 63)

/-- GETBUF (R104). -/
def execGetbuf (s : State) : Host.Outcome State Fault Refusal :=
  .next (s.respond fun r =>
    { r with err := false, wbase := s.fill.tail, wlen := BitVec.ofNat 6 s.fill.windowLen })

/-- WRBUF i, v (R105): WINDOW_RANGE outside the window, else one byte of the filling buffer. -/
def execWrbuf (i : BitVec 6) (v : Byte) (s : State) : Host.Outcome State Fault Refusal :=
  if s.fill.windowLen ≤ i.toNat then .next (s.raise (.windowRange i))
  else .next ((s.setFill (s.fill.write (s.fill.tail.toNat + i.toNat) v)).respond
    fun r => { r with err := false })

end Sys2Proof.Machine
end

