-- ==== Sys2Proof/Machine/Binary64.lean ====
section
/-! DEFINITION. Binary64 arithmetic (00_scope.md R13): the value of a word, `fl` of an exact rational, and the
operations that round once, to nearest with ties to even. What an infinity or a NaN gives is log 17. -/

namespace Sys2Proof.Machine

/-- The sign bit. -/
def f64Neg (x : Binary64) : Bool := x.msb

/-- The biased exponent field. -/
def f64Exp (x : Binary64) : Nat := (x.extractLsb' 52 11).toNat

/-- The fraction field. -/
def f64Frac (x : Binary64) : Nat := (x.extractLsb' 0 52).toNat

/-- Neither an infinity nor a NaN. -/
def f64Finite (x : Binary64) : Bool := f64Exp x != 2047

/-- A NaN. -/
def f64NaN (x : Binary64) : Bool := f64Exp x == 2047 && f64Frac x != 0

/-- An infinity. -/
def f64Inf (x : Binary64) : Bool := f64Exp x == 2047 && f64Frac x == 0

/-- `2^k`. -/
def pow2 (k : Int) : ℚ := if 0 ≤ k then (2 ^ k.toNat : Nat) else mkRat 1 (2 ^ (-k).toNat)

/-- The absolute value of a finite word. -/
def f64Abs (x : Binary64) : ℚ :=
  if f64Exp x = 0 then f64Frac x * pow2 (-1074) else (2 ^ 52 + f64Frac x : Nat) * pow2 (f64Exp x - 1075)

/-- The value of a finite word. -/
def f64Val (x : Binary64) : ℚ := if f64Neg x then -f64Abs x else f64Abs x

/-- The bits, sign apart, of +∞. -/
def infBits : Nat := 2047 * 2 ^ 52

/-- A word from its sign and its other bits. -/
def f64Pack (neg : Bool) (bits : Nat) : Binary64 := BitVec.ofNat 64 (bits + if neg then 2 ^ 63 else 0)

/-- An infinity. -/
def f64InfOf (neg : Bool) : Binary64 := f64Pack neg infBits

/-- The NaN an invalid operation gives (log 17). -/
def f64QuietNaN : Binary64 := 0x7FF8000000000000#64

/-- The exponent of the last place of `n / d` (both positive) in binary64: `n / d / 2^e` lies in
`[2^52, 2^53)`, or `e` is the least exponent, −1074. -/
def ulpExp (n d : Nat) : Int :=
  let k : Int := (n.log2 : Int) - d.log2
  let k := if (if 0 ≤ k then d * 2 ^ k.toNat ≤ n else d ≤ n * 2 ^ (-k).toNat) then k else k - 1
  max (-1074) (k - 52)

/-- The integer nearest `n / d`, ties to even. -/
def divNearestEven (n d : Nat) : Nat :=
  if 2 * (n % d) > d || (2 * (n % d) == d && n / d % 2 == 1) then n / d + 1 else n / d

/-- The bits, sign apart, of the word nearest `n / d`, ties to even. -/
def roundBits (n d : Nat) : Nat :=
  if n = 0 then 0 else
    let e := ulpExp n d
    let q := divNearestEven (n * 2 ^ (-e).toNat) (d * 2 ^ e.toNat)
    min infBits ((e + 1074).toNat * 2 ^ 52 + q)

/-- `fl(q)`: the binary64 value nearest `q`, ties to even (00_scope.md R13). -/
def fl (q : ℚ) : Binary64 := f64Pack (decide (q < 0)) (roundBits q.num.natAbs q.den)

/-- An integer as binary64: exact for `|v| < 2^53`. -/
def f64OfInt (v : Int) : Binary64 := fl v

/-- Minus. -/
def fneg (x : Binary64) : Binary64 := x ^^^ 0x8000000000000000#64

/-- The word `fl |q|` with the sign given. -/
def flSigned (neg : Bool) (q : ℚ) : Binary64 := f64Pack neg (roundBits q.num.natAbs q.den)

/-- `fl(x · y)`. -/
def fmul (x y : Binary64) : Binary64 :=
  let neg := f64Neg x != f64Neg y
  if f64NaN x || f64NaN y then f64QuietNaN
  else if f64Inf x || f64Inf y then
    if (f64Finite x && f64Abs x == 0) || (f64Finite y && f64Abs y == 0) then f64QuietNaN else f64InfOf neg
  else flSigned neg (f64Abs x * f64Abs y)

/-- `fl(x / y)`. -/
def fdiv (x y : Binary64) : Binary64 :=
  let neg := f64Neg x != f64Neg y
  if f64NaN x || f64NaN y then f64QuietNaN
  else if f64Inf x then if f64Inf y then f64QuietNaN else f64InfOf neg
  else if f64Inf y then f64Pack neg 0
  else if f64Abs y = 0 then if f64Abs x = 0 then f64QuietNaN else f64InfOf neg
  else flSigned neg (f64Abs x / f64Abs y)

/-- `fl(x + y)`: an exact zero sum is +0 unless both operands are negative. -/
def fadd (x y : Binary64) : Binary64 :=
  if f64NaN x || f64NaN y then f64QuietNaN
  else if f64Inf x then if f64Inf y && f64Neg x != f64Neg y then f64QuietNaN else x
  else if f64Inf y then y
  else if f64Val x + f64Val y = 0 then f64Pack (f64Neg x && f64Neg y) 0
  else fl (f64Val x + f64Val y)

/-- `fl(x − y)`. -/
def fsub (x y : Binary64) : Binary64 := fadd x (fneg y)

/-- `RNI(x)`: the integer nearest a finite word, ties to even (42_geodetic.md R191). -/
def rni (x : Binary64) : Int :=
  let m : Int := divNearestEven (f64Abs x).num.toNat (f64Abs x).den
  if f64Neg x then -m else m

/-- `fl(π)` (41_decoder.md R149): 3.141592653589793. -/
def flPi : Binary64 := 0x400921FB54442D18#64

end Sys2Proof.Machine
end

