-- ==== Sys2Proof/Machine/Geodetic.lean ====
section
/-! DEFINITION. The Geodetic Transform (42_geodetic.md): constants, conversions, the reference evaluations
REF_XF and REF_INV over a library, the configuration functions XF and INV, and the commands TRANSFORM and
FROMENU. -/

namespace Sys2Proof.Machine

/-- WGS84_A, 6378137.0 m (R180). -/
def wgs84A : Binary64 := fl 6378137

/-- `F = fl(1 / 298.257223563)`, 0.0033528106647474805, with 298.257223563 a binary64 word itself (R180; log
21). -/
def wgs84F : Binary64 := fdiv (f64OfInt 1) (fl (mkRat 298257223563 1000000000))

/-- `B = fl(A · fl(1 − F))` (R180). -/
def wgs84B : Binary64 := fmul wgs84A (fsub (f64OfInt 1) wgs84F)

/-- `C7 = fl(1e-7)` (R181). -/
def c7 : Binary64 := fl (mkRat 1 10000000)

/-- `D2R = fl(fl(π) / 180)` (R181). -/
def d2r : Binary64 := fdiv flPi (f64OfInt 180)

/-- `L = fl(ALT_LSB_M)` (R181). -/
def altLsb : Binary64 := fl Config.altLsbM

/-- `toRad(v) = fl(fl(v · C7) · D2R)` (R181). -/
def toRad (v : Int) : Binary64 := fmul (fmul (f64OfInt v) c7) d2r

/-- `dlat = lat − lat0`, exact (R188). -/
def dLat (p o : Wgs84) : Int := p.lat.toInt - o.lat.toInt

/-- `dlon = lon − lon0`, exact (R188). -/
def dLon (p o : Wgs84) : Int := p.lon.toInt - o.lon.toInt

/-- `dalt = alt − alt0`, exact (R188). -/
def dAlt (p o : Wgs84) : Int := p.alt.toInt - o.alt.toInt

/-- `fl(dalt · L)`, the up component (R185, XF-UP of R189). -/
def xfUp (p o : Wgs84) : Binary64 := fmul (f64OfInt (dAlt p o)) altLsb

/-- The radius r of REF_XF and REF_INV (R185, R191). -/
def refRadius (lib : MathLib) (o : Wgs84) : Binary64 :=
  let th := toRad o.lat.toInt
  fadd (lib.hyp (fmul wgs84A (lib.cos th)) (fmul wgs84B (lib.sin th))) (fmul (f64OfInt o.alt.toInt) altLsb)

/-- `fl(r · c)`, the radius of the offset's parallel (R185, R191). -/
def refParallel (lib : MathLib) (o : Wgs84) : Binary64 :=
  fmul (refRadius lib o) (lib.cos (toRad o.lat.toInt))

/-- REF_XF (R185). -/
def refXf (lib : MathLib) (p o : Wgs84) : Enu where
  east := fmul (refParallel lib o) (lib.tan (toRad (dLon p o)))
  north := fmul (refRadius lib o) (lib.tan (toRad (dLat p o)))
  up := xfUp p o

/-- A zero with the sign of `x`. -/
def zeroLike (x : Binary64) : Binary64 := f64Pack (f64Neg x) 0

/-- XF (R189): `up` exact (XF-UP); `east` and `north` are zeros, of open sign, when their difference is 0
(XF-ZERO); elsewhere they are open (log 15). It depends on p, o and ALT_LSB_M alone (XF-DEP). -/
def xf (p o : Wgs84) : Enu where
  east := if dLon p o = 0 then zeroLike (Config.xfEast p o) else Config.xfEast p o
  north := if dLat p o = 0 then zeroLike (Config.xfNorth p o) else Config.xfNorth p o
  up := xfUp p o

/-- An integer as a signed 32-bit number, when it is one. -/
def int32? (v : Int) : Option (BitVec 32) :=
  if -2147483648 ≤ v ∧ v ≤ 2147483647 then some (BitVec.ofInt 32 v) else none

/-- `RNI(fl(fl(d / D2R) / C7))`: an angle as a count of 1e-7 degree; nothing for a non-finite one (R191). -/
def radToUnits (d : Binary64) : Option Int :=
  let u := fdiv (fdiv d d2r) c7
  if f64Finite u then some (rni u) else none

/-- `RNI(fl(up / L))`; nothing for a non-finite one (R191). -/
def upToUnits (up : Binary64) : Option Int :=
  let u := fdiv up altLsb
  if f64Finite u then some (rni u) else none

/-- REF_INV (R191): nothing where the rule leaves the result unspecified. -/
def refInv (lib : MathLib) (e : Enu) (o : Wgs84) : Option Wgs84 :=
  if f64Finite e.east && f64Finite e.north && f64Finite e.up then do
    let dphi ← radToUnits (lib.atan (fdiv e.north (refRadius lib o)))
    let dlam ← radToUnits (lib.atan (fdiv e.east (refParallel lib o)))
    let dup ← upToUnits e.up
    let lat ← int32? (o.lat.toInt + dphi)
    let lon ← int32? (o.lon.toInt + dlam)
    let alt ← int32? (o.alt.toInt + dup)
    return ⟨lat, lon, alt⟩
  else none

/-- TRANSFORM (R187). -/
def execTransform (s : State) : Host.Outcome State Fault Refusal :=
  .next (s.respond fun r => { r with err := false, enu := xf s.arg.p s.arg.o })

/-- FROMENU (R192), with INV as the configuration function (R194; log 16). -/
def execFromenu (s : State) : Host.Outcome State Fault Refusal :=
  .next (s.respond fun r => { r with err := false, pos := Config.inv s.arg.e s.arg.o })

end Sys2Proof.Machine
end

