-- ==== Sys2Proof/Machine/Operands.lean ====
section
/-! DEFINITION. Operand forms: the fields of a frame at their offsets and widths (30_encoding.md R70, R71),
and the reads of the current frame that NOTIFY makes (00_scope.md R15). -/

namespace Sys2Proof.Machine

/-- A 16-bit field at offset `o` (00_scope.md R11). -/
def FrameBuffer.field16 (order : ByteOrder) (f : FrameBuffer) (o : Nat) : BitVec 16 :=
  match order with
  | .little => f.byte (o + 1) ++ f.byte o
  | .big => f.byte o ++ f.byte (o + 1)

/-- A 32-bit field at offset `o` (00_scope.md R11). -/
def FrameBuffer.field32 (order : ByteOrder) (f : FrameBuffer) (o : Nat) : BitVec 32 :=
  match order with
  | .little => f.byte (o + 3) ++ f.byte (o + 2) ++ f.byte (o + 1) ++ f.byte o
  | .big => f.byte o ++ f.byte (o + 1) ++ f.byte (o + 2) ++ f.byte (o + 3)

/-- `MemRead(o, 1)` (R15). -/
def State.memRead8 (s : State) (o : Nat) : Byte := s.cur.byte o

/-- `MemRead(o, 2)` (R15). -/
def State.memRead16 (s : State) (o : Nat) : BitVec 16 := s.cur.field16 Config.fieldByteOrder o

/-- `MemRead(o, 4)` (R15). -/
def State.memRead32 (s : State) (o : Nat) : BitVec 32 := s.cur.field32 Config.fieldByteOrder o

/-- The yaw field, offset 7, signed (R70). -/
def State.yaw (s : State) : Int := (s.memRead16 7).toInt

/-- The status byte, offset 39 (R70, R74). -/
def State.statusByte (s : State) : Byte := s.memRead8 39

/-- The tag byte, offset 56 (R70, R73). -/
def State.tagByte (s : State) : Byte := s.memRead8 56

/-- The extra region, offsets 46, 48 and 50, as a Persisted Solution State (R70, R73). -/
def State.extra (s : State) : Pss := ⟨s.memRead16 46, s.memRead16 48, s.memRead16 50⟩

/-- POSITION: latitude, longitude and altitude, offsets 21, 25 and 29 (41_decoder.md R150). -/
def State.position (s : State) : Wgs84 := ⟨s.memRead32 21, s.memRead32 25, s.memRead32 29⟩

end Sys2Proof.Machine
end

