-- ==== Sys2Proof/Machine/Decoder.lean ====
section
/-! DEFINITION. The Decoder (41_decoder.md): the command NOTIFY and its parts CHECK_COUNT, SWAP, LATCH, GATE,
CLASSIFY and HEADING. -/

namespace Sys2Proof.Machine

/-- The tag of frames that carry a Persisted Solution State (00_scope.md R7). -/
def tagState : Byte := 32#8

/-- STATUS_MIN_BITS (00_scope.md R7). -/
def statusMinBits : Nat := 4

/-- The first of the `n` bytes from TAIL on whose DEF bit is 0 (R141). -/
def FrameBuffer.firstUndef (f : FrameBuffer) (n : Nat) : Option Nat :=
  (List.range' f.tail.toNat n).find? fun j => !f.isDef j

/-- CHECK_COUNT's second part: HOST_UNDEF is recorded, for the first such byte, and the engine goes on
(R141, 60_exceptions.md R237; log 6). -/
def State.noteUndef (s : State) (n : Nat) : State :=
  { s with record := s.record ++ ((s.fill.firstUndef n).map RecordedFault.hostUndef).toList }

/-- SWAP (R143): the current buffer is recycled, empty and with no byte defined, its bytes a new drawing of free
bytes (93_implementation_defined.md row 2; log 8), and the two change roles. -/
def State.swap (s : State) : State :=
  { s.setBuf s.which (FrameBuffer.blank s.draws) with which := s.which.other, draws := s.draws + 1 }

/-- LATCH (R144). -/
def State.latch (s : State) : State := { s with pss := if s.tagByte = tagState then s.extra else s.pss }

/-- GATE at the time of this NOTIFY (R146). -/
def State.gateOpen (s : State) : Bool := gate Config.minIntervalUs s.lastValid s.lastEmit s.arg.now

/-- The emission step: `LAST_EMIT <- now; LAST_VALID <- 1` (R147). -/
def State.emit (s : State) : State := { s with lastEmit := s.arg.now, lastValid := true }

/-- `HEADING_SIGN · fl(π) / 2` (R149). -/
def headingZero : HeadingSign → Binary64
  | .plus => fdiv flPi (f64OfInt 2)
  | .minus => fneg (fdiv flPi (f64OfInt 2))

/-- `K = fl(π) / 16384` (R149). -/
def yawK : Binary64 := fdiv flPi (f64OfInt 16384)

/-- HEADING (R149). -/
def heading (sign : HeadingSign) (yaw : Int) : Binary64 :=
  fsub (headingZero sign) (fmul (f64OfInt yaw) yawK)

/-- The Solution Nothing (30_encoding.md R83). -/
def State.solveNothing (s : State) : State := s.respond fun r => { r with err := false, kind := 0#2 }

/-- CLASSIFY and the Solution of an emission: Uninitialized or Data (R140 step 5, R148, 30_encoding.md R83). -/
def State.solve (s : State) : State :=
  if popcount8 s.statusByte < statusMinBits then
    s.respond fun r => { r with err := false, kind := 1#2, st := s.pss }
  else
    s.respond fun r => { r with
      err := false
      kind := 2#2
      st := s.pss
      dir := heading Config.headingSign s.yaw
      enu := xf s.position s.ref }

/-- NOTIFY after a verified frame: steps 2 to 5 (R140). -/
def State.promote (s : State) : State :=
  let t := s.swap.latch
  if t.gateOpen then t.emit.solve else t.solveNothing

/-- NOTIFY with its count in range: VERIFY, then Nothing or the verified frame's steps (R140). -/
def State.receive (s : State) (n : Nat) : State :=
  let v := s.fill.verify n s.draws
  if v.2 then (s.setFill v.1).promote else (s.setFill v.1).solveNothing

/-- NOTIFY n (R140): COUNT_RANGE beyond the window (R141), else HOST_UNDEF noted and the bytes received. -/
def execNotify (n : BitVec 6) (s : State) : Host.Outcome State Fault Refusal :=
  if s.fill.windowLen < n.toNat then .next (s.raise (.countRange n))
  else .next ((s.noteUndef n.toNat).receive n.toNat)

end Sys2Proof.Machine
end

