-- ==== Sys2Proof/Machine/Dispatch.lean ====
section
/-! DEFINITION. One arm per instruction. -/

namespace Sys2Proof.Machine

def exec (i : Instr) (s : State) : Host.Outcome State Fault Refusal :=
  match i with
  | .reset => Sys2Proof.Machine.execReset s
  | .getbuf => Sys2Proof.Machine.execGetbuf s
  | .wrbuf k v => Sys2Proof.Machine.execWrbuf k v s
  | .notify n => Sys2Proof.Machine.execNotify n s
  | .transform => Sys2Proof.Machine.execTransform s
  | .fromenu => Sys2Proof.Machine.execFromenu s
  | .rdstat => Sys2Proof.Machine.execRdstat s

end Sys2Proof.Machine
end

