-- ==== Sys2Proof/Machine/Step.lean ====
section
/-! DEFINITION. One step: the oldest command on the port, with its operand bus sampled, is decoded and
executed (10_state.md R21, 00_scope.md R5; log 1). -/

namespace Sys2Proof.Machine

/-- The state in which a command taken from the port is executed: the port moves on and the operand bus is
sampled, once, at the command's start (30_encoding.md R79). -/
def State.accept (s : State) (c : Command) (rest : List Command) : State := { s with port := rest, arg := c.arg }

/-- One step. An illegal word raises ILLEGAL_CMD (60_exceptions.md R234); with no command the engine is idle
and keeps its state (R248). -/
def step (s : State) : Host.Outcome State Fault Refusal :=
  match s.port with
  | [] => .next s
  | c :: rest =>
    match decode c.word with
    | .legal i => exec i (s.accept c rest)
    | .illegal _ => .next ((s.accept c rest).raise .illegalCmd)

/-- The host issues the command word whose low `nbits` bits are `w`, as the next command, with the operand bus
as it stands (log 1, log 2). -/
def State.withFetchWord (s : State) (nbits w : Nat) : State :=
  { s with port := ⟨BitVec.ofNat 32 (w % 2 ^ nbits), s.arg⟩ :: s.port }

end Sys2Proof.Machine
end

