-- ==== Sys2Proof/Safety.lean ====
section
/-! DEFINITION. The terms claims are stated in: good runs, the engine's invariant, runs of host commands, the
illegal words, header matches, the real-valued formulas of 42_geodetic.md and the named properties of XF and
INV that a claim may take as a hypothesis. -/

namespace Sys2Proof.Machine

/-- A run is good when no fault is recorded (70_reset_and_hazards.md R271). -/
def State.Good (s : State) : Prop := s.record = []

/-- The run of host commands, one step each: the state after it and the sequence of RES values (R271). The
commands are the only ones on the port. Nothing, if a step did not give a next state. -/
def run : List Command → State → Option (State × List Res)
  | [], s => some (s, [])
  | c :: cs, s =>
    match step { s with port := [c] } with
    | .next t => (run cs t).map fun u => (u.1, t.res :: u.2)
    | _ => none

/-- The FEEDs of a byte stream cut into chunks, each with the NOW of its NOTIFY (30_encoding.md R86). -/
def feeds (arg : Arg) (chunks : List (BitVec 64 × List Byte)) : List Command :=
  chunks.flatMap fun c => feed arg c.1 c.2

/-- Every FEED of the chunks is well-formed when its turn comes: its bytes fit the window (R86). -/
def FeedsFit (arg : Arg) : List (BitVec 64 × List Byte) → State → Prop
  | [], _ => True
  | c :: cs, s => c.2.length ≤ s.fill.windowLen ∧
      ∀ t rs, run (feed arg c.1 c.2) s = some (t, rs) → FeedsFit arg cs t

/-- The two results carry the same Solution (30_encoding.md R83). -/
def Res.SameSolution (r q : Res) : Prop :=
  r.kind = q.kind ∧ (r.kind ≠ 0#2 → r.st = q.st) ∧ (r.kind = 2#2 → r.enu = q.enu ∧ r.dir = q.dir)

/-- The 63 bytes pass both checksum regions (40_frame_buffer.md R102). -/
def FrameBytesOk (bytes : List Byte) : Prop :=
  bytes.length = 63 ∧ check (bytes.take 58) = true ∧ check (bytes.drop 58) = true

/-- The word is illegal on an instance whose HAS_FROM_ENU is the argument (30_encoding.md R82). -/
def IsIllegalWord (hasFromEnu : Bool) (w : CmdWord) : Prop :=
  let op := w.toNat / 2 ^ 28
  let rsv := w.toNat / 2 ^ 14 % 2 ^ 14
  let idx := w.toNat / 2 ^ 8 % 2 ^ 6
  let dat := w.toNat % 2 ^ 8
  op = 0 ∨ 8 ≤ op ∨ rsv ≠ 0 ∨ (idx ≠ 0 ∧ op ≠ 3 ∧ op ≠ 4) ∨ (dat ≠ 0 ∧ op ≠ 3) ∨ (op = 6 ∧ hasFromEnu = false)

/-- The header matches at position `p` of a buffer with end `e`: every one of the three header bytes that lies
before `e` is there (30_encoding.md R72). -/
def HeaderMatches (f : FrameBuffer) (p e : Nat) : Prop :=
  ∀ k, k < 3 → p + k < e → f.byte (p + k) = magic.getD k 0#8

/-- The bytes below TAIL, as far as the header reaches, are the header's (10_state.md R27). -/
def FrameBuffer.HoldsHeader (f : FrameBuffer) : Prop :=
  ∀ k, k < 3 → k < f.tail.toNat → f.byte k = magic.getD k 0#8

/-- A buffer's data: the bytes in the one form, and every defined byte listed (10_state.md R32). -/
def FrameBuffer.Sound (f : FrameBuffer) : Prop :=
  f.cells.wf ∧ ∀ i, f.isDef i = true → (f.cells.read? i).isSome = true

/-- The engine's invariant: both buffers sound; the filling buffer never full (10_state.md R26) and starting
with the header (R27); the current buffer empty before the first emission since reset, and a whole verified
frame after it (R33); REF the parameter (R31). -/
structure State.Inv (s : State) : Prop where
  soundA : s.bufA.Sound
  soundB : s.bufB.Sound
  notFull : s.fill.tail.toNat ≤ 62
  header : s.fill.HoldsHeader
  fresh : s.lastValid = false → s.cur.tail = 0#6
  frame : s.lastValid = true → s.cur.tail = 63#6 ∧ s.cur.frameOk = true ∧ s.cur.HoldsHeader
  refFixed : s.ref = Config.refDefault

/-- `x` is `fl(r)`: the binary64 value nearest the real `r`, ties to even, an infinity beyond the largest
finite value by half a place or more (00_scope.md R13). -/
def Rounds (r : ℝ) (x : Binary64) : Prop :=
  (|r| < 2 ^ 1024 - 2 ^ 970 →
    f64Finite x = true ∧ ∀ y, f64Finite y = true →
      |(f64Val x : ℝ) - r| < |(f64Val y : ℝ) - r| ∨ f64Val y = f64Val x ∨
        (|(f64Val x : ℝ) - r| = |(f64Val y : ℝ) - r| ∧ f64Frac x % 2 = 0)) ∧
  (2 ^ 1024 - 2 ^ 970 ≤ |r| → f64Inf x = true) ∧
  (r < 0 → f64Neg x = true) ∧ (0 < r → f64Neg x = false)

/-- `n` is the integer nearest `x`, ties to even (42_geodetic.md R190, R191). -/
def RoundsToInt (x : ℝ) (n : ℤ) : Prop := |x - n| < 1 / 2 ∨ (|x - n| = 1 / 2 ∧ Even n)

/-- `g` is the correctly rounded `f`: on every finite argument it answers `fl` of the real value. -/
def CorrectlyRounded (f : ℝ → ℝ) (g : Binary64 → Binary64) : Prop :=
  ∀ x, f64Finite x = true → Rounds (f (f64Val x)) (g x)

/-- COS, SIN and HYP of the library are correctly rounded: what the radius of REF_XF and REF_INV uses (42_geodetic.md
R185, R191). -/
def RadiusLibCorrectlyRounded (l : MathLib) : Prop :=
  CorrectlyRounded Real.cos l.cos ∧ CorrectlyRounded Real.sin l.sin ∧
  ∀ x y, f64Finite x = true → f64Finite y = true →
    Rounds (Real.sqrt ((f64Val x : ℝ) ^ 2 + (f64Val y : ℝ) ^ 2)) (l.hyp x y)

/-- The condition of XF-REF: COS, SIN, TAN and HYP are correctly rounded (R189). -/
def ForwardLibCorrectlyRounded (l : MathLib) : Prop :=
  RadiusLibCorrectlyRounded l ∧ CorrectlyRounded Real.tan l.tan

/-- The condition of INV-REF: COS, SIN, HYP and ATAN are correctly rounded (R194). -/
def InverseLibCorrectlyRounded (l : MathLib) : Prop :=
  RadiusLibCorrectlyRounded l ∧ CorrectlyRounded Real.arctan l.atan

/-- θ and r for an offset, over the reals: θ = lat0 · 1e-7 · π/180, B = A(1 − F), and
r = hypot(A cos θ, B sin θ) + alt0 · ALT_LSB_M (R180, R181, R182). -/
def IsIdealRadius (o : Wgs84) (th r : ℝ) : Prop :=
  th = o.lat.toInt / 10 ^ 7 * (Real.pi / 180) ∧
  r = Real.sqrt ((6378137 * Real.cos th) ^ 2
      + (6378137 * (1 - 1 / (298257223563 / 10 ^ 9)) * Real.sin th) ^ 2) + o.alt.toInt * (Config.altLsbM : ℝ)

/-- The ideal forward transform (R183). DESIGN CHOICE, unsafe: at a difference of ±900000000 or ±2700000000, a pole
of the real tangent, the rule's formula has no value and this takes Lean's 0 for the tangent (log 25). -/
def IsIdealForward (p o : Wgs84) (east north up : ℝ) : Prop :=
  ∃ th r, IsIdealRadius o th r ∧
    east = r * Real.cos th * Real.tan (dLon p o / 10 ^ 7 * (Real.pi / 180)) ∧
    north = r * Real.tan (dLat p o / 10 ^ 7 * (Real.pi / 180)) ∧
    up = dAlt p o * (Config.altLsbM : ℝ)

/-- The ideal inverse: the integers it gives, before any range (R190). DESIGN CHOICE, unsafe: at lat0 = ±900000000,
where cos θ is 0, the rule's quotient has no value and this takes Lean's 0 for it (log 25). -/
def IsIdealInverse (east north up : ℝ) (o : Wgs84) (lat lon alt : ℤ) : Prop :=
  ∃ th r, IsIdealRadius o th r ∧
    RoundsToInt (Real.arctan (north / r) * (180 / Real.pi) * 10 ^ 7) (lat - o.lat.toInt) ∧
    RoundsToInt (Real.arctan (east / (r * Real.cos th)) * (180 / Real.pi) * 10 ^ 7) (lon - o.lon.toInt) ∧
    RoundsToInt (up / (Config.altLsbM : ℝ)) (alt - o.alt.toInt)

/-- XF-REF, a hypothesis a claim may take (R189). -/
def XfRef : Prop :=
  (ForwardLibCorrectlyRounded Config.lib → ∀ p o, xf p o = refXf Config.lib p o) ∧
  (¬ ForwardLibCorrectlyRounded Config.lib → ∀ p o east north up, IsIdealForward p o east north up →
    |dLat p o| ≤ 4500000 → |dLon p o| ≤ 4500000 →
    f64Finite (xf p o).east = true ∧ |(f64Val (xf p o).east : ℝ) - east| ≤ (Config.xfTolM : ℝ) ∧
    f64Finite (xf p o).north = true ∧ |(f64Val (xf p o).north : ℝ) - north| ≤ (Config.xfTolM : ℝ))

/-- INV-REF, a hypothesis a claim may take (R194). -/
def InvRef : Prop :=
  InverseLibCorrectlyRounded Config.lib →
    ∀ e o p, refInv Config.lib e o = some p → Config.inv e o = p

/-- The round-trip domain: within about 50 km of the reference, dalt in the signed 32-bit range (R193). -/
def InRoundTripDomain (p o : Wgs84) : Prop :=
  |dLat p o| ≤ 4500000 ∧
  |(dLon p o : ℝ)| * Real.cos (o.lat.toInt / 10 ^ 7 * (Real.pi / 180)) ≤ 4500000 ∧
  -2147483648 ≤ dAlt p o ∧ dAlt p o ≤ 2147483647

/-- Each component of `q` differs from that of `p` by at most 1 (R193). -/
def WithinOneUnit (p q : Wgs84) : Prop := |dLat q p| ≤ 1 ∧ |dLon q p| ≤ 1 ∧ |dAlt q p| ≤ 1

/-- INV-RT, a hypothesis a claim may take (R194). -/
def InvRt : Prop := ∀ p o, InRoundTripDomain p o → WithinOneUnit p (Config.inv (xf p o) o)

end Sys2Proof.Machine
end

