-- ==== Sys2Proof/Certificates/Slice0/Obligations.lean ====
section
/-! DEFINITION. The statements for the provers, from the numbered rules of spec/. Each docstring names the
rules; OBLIGATIONS.json holds the full text. -/

open Sys2Proof Sys2Proof.Machine

/-- A step executes the oldest command on the port (10_state.md R21; 30_encoding.md R79; 00_scope.md R5). -/
def Obligations.StepRunsTheDecodedCommand : Prop :=
  ∀ (s : State) (c : Command) (rest : List Command) (i : Instr),
    s.port = c :: rest → decode c.word = .legal i →
    step s = exec i { s with port := rest, arg := c.arg }

/-- With no command pending a step changes nothing (60_exceptions.md R248). -/
def Obligations.IdleStepKeepsTheState : Prop :=
  ∀ s : State, s.port = [] → step s = .next s

/-- An illegal command word raises ILLEGAL_CMD and does nothing else (R234). -/
def Obligations.IllegalWordRaisesIllegalCmd : Prop :=
  ∀ (s : State) (c : Command) (rest : List Command),
    s.port = c :: rest → IsIllegalWord Config.hasFromEnu c.word →
    ∃ t, step s = .next t ∧ t.res.err = true ∧
      t = { s with port := rest, arg := c.arg, errIllegal := true, record := s.record ++ [.error .illegalCmd], res := t.res, draws := t.draws }

/-- Decoding refuses exactly the illegal words (30_encoding.md R82; 30_encoding.md R77). -/
def Obligations.DecodeRefusesExactlyIllegalWords : Prop :=
  ∀ (h : Bool) (w : CmdWord),
    (∃ why, decodeWith h w = .illegal why) ↔ IsIllegalWord h w

/-- A word is a command exactly when it has that row's match under its mask (30_encoding.md R81; 30_encoding.md R78). -/
def Obligations.DecodingFollowsTheOpcodeMap : Prop :=
  ∀ (h : Bool) (w : CmdWord),
    (decodeWith h w = .legal .reset ↔ w &&& 0xFFFFFFFF#32 = 0x10000000#32) ∧
    (decodeWith h w = .legal .getbuf ↔ w &&& 0xFFFFFFFF#32 = 0x20000000#32) ∧
    (∀ i v, decodeWith h w = .legal (.wrbuf i v) ↔
      w &&& 0xFFFFC000#32 = 0x30000000#32 ∧ i = w.extractLsb' 8 6 ∧ v = w.extractLsb' 0 8) ∧
    (∀ n, decodeWith h w = .legal (.notify n) ↔ w &&& 0xFFFFC0FF#32 = 0x40000000#32 ∧ n = w.extractLsb' 8 6) ∧
    (decodeWith h w = .legal .transform ↔ w &&& 0xFFFFFFFF#32 = 0x50000000#32) ∧
    (decodeWith h w = .legal .fromenu ↔ h = true ∧ w &&& 0xFFFFFFFF#32 = 0x60000000#32) ∧
    (decodeWith h w = .legal .rdstat ↔ w &&& 0xFFFFFFFF#32 = 0x70000000#32)

/-- Decoding the word of a well-formed instruction gives it back (30_encoding.md R77; 30_encoding.md R78; 30_encoding.md R81). -/
def Obligations.DecodeOfEncode : Prop :=
  ∀ (h : Bool) (i : Instr), i.wfWith h = true → decodeWith h (encode i) = .legal i

/-- A word that decodes is the encoding of what it decodes to (30_encoding.md R77; 30_encoding.md R81; 30_encoding.md R82). -/
def Obligations.EncodeOfDecode : Prop :=
  ∀ (h : Bool) (w : CmdWord) (i : Instr), decodeWith h w = .legal i → encode i = w ∧ i.wfWith h = true

/-- The decoding vectors of the spec (95_test_vectors.md V-DEC-1 to V-DEC-19). -/
def Obligations.SampleWordsDecode : Prop :=
  ∀ h : Bool,
    decodeWith h 0x10000000#32 = .legal .reset ∧ decodeWith h 0x20000000#32 = .legal .getbuf ∧
    decodeWith h 0x300000BD#32 = .legal (.wrbuf 0#6 0xBD#8) ∧ decodeWith h 0x30003F00#32 = .legal (.wrbuf 63#6 0#8) ∧
    decodeWith h 0x40000000#32 = .legal (.notify 0#6) ∧ decodeWith h 0x30003FFF#32 = .legal (.wrbuf 63#6 0xFF#8) ∧
    decodeWith h 0x40003F00#32 = .legal (.notify 63#6) ∧ decodeWith h 0x50000000#32 = .legal .transform ∧
    decodeWith true 0x60000000#32 = .legal .fromenu ∧ decodeWith false 0x60000000#32 = .illegal .noFromEnu ∧
    decodeWith h 0x70000000#32 = .legal .rdstat ∧
    (∀ w ∈ [0x00000000#32, 0x10000001#32, 0x10000100#32, 0x10004000#32, 0x30004000#32, 0x40003F01#32,
      0x80000000#32, 0xF0000000#32, 0x7FFFFFFF#32], ∃ why, decodeWith h w = .illegal why)

/-- No step stops the engine (93_implementation_defined.md Part 1; 60_exceptions.md R237). -/
def Obligations.EveryStepAnswersANextState : Prop :=
  ∀ s : State, ∃ t, step s = .next t

/-- GETBUF reports the filling buffer's window and changes nothing (R104). -/
def Obligations.GetbufReportsTheWindow : Prop :=
  encode .getbuf = 0x20000000#32 ∧ State.reset.fill.tail = 0#6 ∧
  (∀ (s t : State), exec .reset s = .next t → t.fill.tail = 0#6) ∧
  (∀ (s t : State) (n : BitVec 6), exec (.notify n) s = .next t → t.which ≠ s.which → t.fill.tail = 0#6) ∧
  ∀ s : State, ∃ t, exec .getbuf s = .next t ∧ t.res.err = false ∧
    t.res.wbase = s.fill.tail ∧ t.res.wlen.toNat = 63 - s.fill.tail.toNat ∧
    (s.fill.tail.toNat ≤ 62 → 1 ≤ t.res.wlen.toNat) ∧ (s.fill.tail = 0#6 → t.res.wlen = 63#6) ∧
    t = { s with res := t.res, draws := t.draws }

/-- WRBUF writes one byte of the window, or raises WINDOW_RANGE (R105; R235). -/
def Obligations.WrbufWritesOneWindowByte : Prop :=
  ∀ (s : State) (i : BitVec 6) (v : Byte),
    encode (.wrbuf i v) = (0x30000000#32 ||| i.setWidth 32 <<< 8 ||| v.setWidth 32) ∧
    (i.toNat < 63 - s.fill.tail.toNat →
      ∃ t, exec (.wrbuf i v) s = .next t ∧ t.res.err = false ∧
        t = { s with bufA := t.bufA, bufB := t.bufB, res := t.res, draws := t.draws } ∧
        t.cur = s.cur ∧ t.fill.tail = s.fill.tail ∧
        t.fill.byte (s.fill.tail.toNat + i.toNat) = v ∧ t.fill.isDef (s.fill.tail.toNat + i.toNat) = true ∧
        ∀ a, a ≠ s.fill.tail.toNat + i.toNat → t.fill.byte a = s.fill.byte a ∧ t.fill.isDef a = s.fill.isDef a) ∧
    (63 - s.fill.tail.toNat ≤ i.toNat →
      ∃ t, exec (.wrbuf i v) s = .next t ∧ t.res.err = true ∧
        t = { s with errWindow := true, record := s.record ++ [.error (.windowRange i)], res := t.res, draws := t.draws })

/-- Repeating a WRBUF inside the window changes nothing more, and beyond it only records the error again (20_memory.md R59; 40_frame_buffer.md R105; 60_exceptions.md R233). -/
def Obligations.WrbufIsIdempotent : Prop :=
  ∀ (s t u : State) (i : BitVec 6) (v : Byte),
    exec (.wrbuf i v) s = .next t → exec (.wrbuf i v) t = .next u →
    (i.toNat < 63 - s.fill.tail.toNat → u = { t with res := u.res, draws := u.draws } ∧ u.res.err = false) ∧
    (63 - s.fill.tail.toNat ≤ i.toNat →
      u = { t with record := t.record ++ [.error (.windowRange i)], res := u.res, draws := u.draws } ∧ u.res.err = true)

/-- Of two WRBUFs to one offset the later one wins (40_frame_buffer.md R105). -/
def Obligations.WrbufLaterWriteWins : Prop :=
  ∀ (s t u w : State) (i : BitVec 6) (v v' : Byte),
    exec (.wrbuf i v) s = .next t → exec (.wrbuf i v') t = .next u → exec (.wrbuf i v') s = .next w →
    u.bufA = w.bufA ∧ u.bufB = w.bufB

/-- A region of two bytes or more passes CHECK exactly when its XOR is 0 (R101). -/
def Obligations.CheckIsZeroXor : Prop :=
  (∀ bytes : List Byte, 2 ≤ bytes.length → (check bytes = true ↔ xorAll bytes = 0#8)) ∧
  (∀ x : Byte, check [x] = true ∧ xorAll [x] = x)

/-- A frame with the header passes exactly when its two checksum bytes are the XOR of the bytes before them (R103). -/
def Obligations.FrameOkByItsChecksumBytes : Prop :=
  ∀ f : FrameBuffer, f.slice 0 3 = [0xBD#8, 0xDB#8, 0x0B#8] →
    (f.frameOk = true ↔ f.byte 57 = xorAll (f.slice 0 57) ∧ f.byte 62 = xorAll (f.slice 58 62)) ∧
    (check (f.slice 0 58) = true ↔ xorAll (f.slice 3 58) = 0x6D#8) ∧
    (check (f.slice 58 63) = true ↔ f.byte 62 = xorAll (f.slice 58 62))

/-- RESYNC keeps what starts at the earliest header match (R110; R111). -/
def Obligations.ResyncTakesTheEarliestMatch : Prop :=
  ∀ (f : FrameBuffer) (lo e draw : Nat), lo ≤ e → e ≤ 63 →
    (∀ p, lo ≤ p → p < e → HeaderMatches f p e → (∀ q, lo ≤ q → q < p → ¬ HeaderMatches f q e) →
      (f.resync lo e draw).2 = e - p ∧ (f.resync lo e draw).1.tail = f.tail ∧
      (p = 0 → (f.resync lo e draw).1 = f) ∧
      (∀ j, j < e - p → (f.resync lo e draw).1.byte j = f.byte (p + j) ∧ (f.resync lo e draw).1.isDef j = f.isDef (p + j)) ∧
      (p ≠ 0 → ∀ j, e - p ≤ j → (f.resync lo e draw).1.isDef j = false)) ∧
    ((∀ q, lo ≤ q → q < e → ¬ HeaderMatches f q e) →
      (f.resync lo e draw).2 = 0 ∧ (f.resync lo e draw).1.tail = f.tail ∧
      (lo = e → (f.resync lo e draw).1 = f) ∧
      (lo < e → ∀ j, (f.resync lo e draw).1.isDef j = false))

/-- After a RESYNC the kept bytes start with the header (R112). -/
def Obligations.ResyncLeavesTheHeaderFirst : Prop :=
  ∀ (f : FrameBuffer) (lo e draw : Nat), lo ≤ e → e ≤ 63 →
    (f.resync lo e draw).2 ≤ e - lo ∧
    ∀ k, k < 3 → k < (f.resync lo e draw).2 → (f.resync lo e draw).1.byte k = [0xBD#8, 0xDB#8, 0x0B#8].getD k 0#8

/-- A full buffer that fails its checksums makes progress and keeps every possible header (40_frame_buffer.md R116; 40_frame_buffer.md R115). -/
def Obligations.RejectedFrameIsRescanned : Prop :=
  ∀ (f g : FrameBuffer) (n draw : Nat), f.assemble n draw = (g, 63) → g.frameOk = false →
    (f.verify n draw).2 = false ∧ (f.verify n draw).1.tail.toNat ≤ 60 ∧
    ∃ p, 3 ≤ p ∧ p ≤ 63 ∧ (f.verify n draw).1.tail.toNat = 63 - p ∧
      (∀ j, j < 63 - p → (f.verify n draw).1.byte j = g.byte (p + j)) ∧
      (p < 63 → HeaderMatches g p 63) ∧ ∀ q, 3 ≤ q → q < p → ¬ HeaderMatches g q 63

/-- Rescanning from offset 3 gives what rescanning from offset 1 would (R117). -/
def Obligations.RescanFromThreeLosesNoHeader : Prop :=
  ∀ (f : FrameBuffer) (draw : Nat), f.slice 0 3 = [0xBD#8, 0xDB#8, 0x0B#8] →
    ¬ HeaderMatches f 1 63 ∧ ¬ HeaderMatches f 2 63 ∧ f.resync 1 63 draw = f.resync 3 63 draw

/-- A valid frame in an empty buffer is accepted in one step (R120). -/
def Obligations.ValidFrameVerifiesAtOnce : Prop :=
  ∀ (f : FrameBuffer) (draw : Nat), f.tail = 0#6 → f.slice 0 3 = [0xBD#8, 0xDB#8, 0x0B#8] → f.frameOk = true →
    f.verify 63 draw = ({ f with tail := 63#6 }, true)

/-- With a confirmed header VERIFY accepts the bytes in place (40_frame_buffer.md R115). -/
def Obligations.ConfirmedHeaderAcceptsTheLength : Prop :=
  ∀ (f : FrameBuffer) (n draw : Nat),
    (3 ≤ f.tail.toNat → f.tail.toNat + n < 63 →
      f.verify n draw = ({ f with tail := BitVec.ofNat 6 (f.tail.toNat + n) }, false)) ∧
    (f.tail.toNat ≤ 62 → f.HoldsHeader → f.verify 0 draw = (f, false))

/-- NOTIFY with a count beyond the window raises COUNT_RANGE (R236). -/
def Obligations.NotifyBeyondTheWindowRaises : Prop :=
  ∀ (s : State) (n : BitVec 6), 63 - s.fill.tail.toNat < n.toNat →
    ∃ t, exec (.notify n) s = .next t ∧ t.res.err = true ∧
      t = { s with errCount := true, record := s.record ++ [.error (.countRange n)], res := t.res, draws := t.draws }

/-- NOTIFY over a byte never written is recorded as HOST_UNDEF (60_exceptions.md R237; 41_decoder.md R141). -/
def Obligations.NotifyRecordsHostUndef : Prop :=
  ∀ (s : State) (n : BitVec 6), n.toNat ≤ 63 - s.fill.tail.toNat →
    ∃ t, exec (.notify n) s = .next t ∧ t.res.err = false ∧
      t.errIllegal = s.errIllegal ∧ t.errWindow = s.errWindow ∧ t.errCount = s.errCount ∧
      ((∀ j, j < n.toNat → s.fill.isDef (s.fill.tail.toNat + j) = true) → t.record = s.record) ∧
      (∀ j, j < n.toNat → s.fill.isDef (s.fill.tail.toNat + j) = false →
        (∀ k, k < j → s.fill.isDef (s.fill.tail.toNat + k) = true) →
        t.record = s.record ++ [.hostUndef (s.fill.tail.toNat + j)])

/-- A NOTIFY that verifies no frame gives Nothing and touches the filling buffer only (R142). -/
def Obligations.NotifyUnverifiedGivesNothing : Prop :=
  ∀ (s : State) (n : BitVec 6), n.toNat ≤ 63 - s.fill.tail.toNat → (s.fill.verify n.toNat s.draws).2 = false →
    ∃ t, exec (.notify n) s = .next t ∧ t.res.err = false ∧ t.res.kind = 0#2 ∧
      t.fill = (s.fill.verify n.toNat s.draws).1 ∧ t.cur = s.cur ∧
      t = { s with bufA := t.bufA, bufB := t.bufB, record := t.record, res := t.res, draws := t.draws }

/-- A verified frame becomes the current one and, if tagged 32, is latched (41_decoder.md R143; 41_decoder.md R144; 41_decoder.md R153; 30_encoding.md R71; 93_implementation_defined.md row 2). -/
def Obligations.NotifyVerifiedSwapsAndLatches : Prop :=
  ∀ (s : State) (n : BitVec 6), n.toNat ≤ 63 - s.fill.tail.toNat → (s.fill.verify n.toNat s.draws).2 = true →
    ∃ t, exec (.notify n) s = .next t ∧ t.res.err = false ∧ t.which = s.which.other ∧
      t.cur = (s.fill.verify n.toNat s.draws).1 ∧ t.cur.tail = 63#6 ∧
      t.fill.tail = 0#6 ∧ t.fill.cells = [] ∧ (∀ a, t.fill.isDef a = false) ∧
      t.pss = (if t.cur.byte 56 = 32#8 then
        ⟨t.cur.byte 47 ++ t.cur.byte 46, t.cur.byte 49 ++ t.cur.byte 48, t.cur.byte 51 ++ t.cur.byte 50⟩ else s.pss) ∧
      t = { s with bufA := t.bufA, bufB := t.bufB, which := t.which, pss := t.pss, lastEmit := t.lastEmit, lastValid := t.lastValid, record := t.record, res := t.res, draws := t.draws }

/-- A verified frame inside the interval gives Nothing and restarts nothing (41_decoder.md R146; 41_decoder.md R145; 41_decoder.md R153). -/
def Obligations.NotifyGatedGivesNothing : Prop :=
  ∀ (s : State) (n : BitVec 6), n.toNat ≤ 63 - s.fill.tail.toNat → (s.fill.verify n.toNat s.draws).2 = true →
    s.lastValid = true → s.arg.now.toNat < s.lastEmit.toNat + Config.minIntervalUs →
    ∃ t, exec (.notify n) s = .next t ∧ t.res.err = false ∧ t.res.kind = 0#2 ∧
      t.lastEmit = s.lastEmit ∧ t.lastValid = true ∧ t.which = s.which.other ∧
      t.cur = (s.fill.verify n.toNat s.draws).1

/-- A verified frame past the gate with fewer than four status bits gives Uninitialized (41_decoder.md R148; 41_decoder.md R147; 30_encoding.md R83). -/
def Obligations.NotifyUninitialized : Prop :=
  ∀ (s : State) (n : BitVec 6), n.toNat ≤ 63 - s.fill.tail.toNat → (s.fill.verify n.toNat s.draws).2 = true →
    (s.lastValid = true → s.lastEmit.toNat + Config.minIntervalUs ≤ s.arg.now.toNat) →
    popcount8 ((s.fill.verify n.toNat s.draws).1.byte 39) < 4 →
    ∃ t, exec (.notify n) s = .next t ∧ t.res.err = false ∧ t.res.kind = 1#2 ∧ t.res.st = t.pss ∧
      t.lastEmit = s.arg.now ∧ t.lastValid = true

/-- A verified frame past the gate with four status bits or more gives Data (41_decoder.md R140; 41_decoder.md R148; 41_decoder.md R149; 41_decoder.md R150; 30_encoding.md R83). -/
def Obligations.NotifyData : Prop :=
  ∀ (s : State) (n : BitVec 6), n.toNat ≤ 63 - s.fill.tail.toNat → (s.fill.verify n.toNat s.draws).2 = true →
    (s.lastValid = true → s.lastEmit.toNat + Config.minIntervalUs ≤ s.arg.now.toNat) →
    4 ≤ popcount8 ((s.fill.verify n.toNat s.draws).1.byte 39) →
    ∃ t, exec (.notify n) s = .next t ∧ t.res.err = false ∧ t.res.kind = 2#2 ∧ t.res.st = t.pss ∧
      t.res.dir = heading Config.headingSign (t.cur.byte 8 ++ t.cur.byte 7).toInt ∧
      t.res.enu = xf ⟨t.cur.byte 24 ++ t.cur.byte 23 ++ t.cur.byte 22 ++ t.cur.byte 21,
        t.cur.byte 28 ++ t.cur.byte 27 ++ t.cur.byte 26 ++ t.cur.byte 25,
        t.cur.byte 32 ++ t.cur.byte 31 ++ t.cur.byte 30 ++ t.cur.byte 29⟩ s.ref ∧
      t.lastEmit = s.arg.now ∧ t.lastValid = true

/-- A NOTIFY inside the interval after an emission gives Nothing (41_decoder.md R154; 41_decoder.md R146; 41_decoder.md R147). -/
def Obligations.DebounceSuppressesTheSecondFrame : Prop :=
  ∀ (s t u v : State) (c1 c2 : Command) (cs : List Command) (r1 r2 : Res) (rs : List Res) (n1 n2 : BitVec 6),
    decode c1.word = .legal (.notify n1) → run [c1] s = some (t, [r1]) → r1.err = false → r1.kind ≠ 0#2 →
    run cs t = some (u, rs) →
    (∀ x ∈ cs.zip rs, decode x.1.word ≠ .legal .reset ∧
      ∀ n, decode x.1.word = .legal (.notify n) → x.2.err = true ∨ x.2.kind = 0#2) →
    decode c2.word = .legal (.notify n2) → c2.arg.now.toNat < c1.arg.now.toNat + Config.minIntervalUs →
    run [c2] u = some (v, [r2]) → r2.err = false → r2.kind = 0#2

/-- A NOTIFY without error gives Nothing, Uninitialized or Data (30_encoding.md R83). -/
def Obligations.KindThreeIsNeverProduced : Prop :=
  ∀ (s t : State) (n : BitVec 6), exec (.notify n) s = .next t → t.res.err = false →
    (t.res.kind = 0#2 ∨ t.res.kind = 1#2 ∨ t.res.kind = 2#2) ∧ (t.res.kind ≠ 0#2 → t.res.st = t.pss)

/-- A Solution depends on the used fields of the frame alone (30_encoding.md R76; 30_encoding.md R75; 41_decoder.md R140). -/
def Obligations.UnusedFieldsDoNotReachTheSolution : Prop :=
  ∀ (s s' t t' : State) (n m : BitVec 6),
    n.toNat ≤ 63 - s.fill.tail.toNat → m.toNat ≤ 63 - t.fill.tail.toNat →
    (s.fill.verify n.toNat s.draws).2 = true → (t.fill.verify m.toNat t.draws).2 = true →
    (∀ a ∈ [7, 8, 21, 22, 23, 24, 25, 26, 27, 28, 29, 30, 31, 32, 39, 46, 47, 48, 49, 50, 51, 56],
      (s.fill.verify n.toNat s.draws).1.byte a = (t.fill.verify m.toNat t.draws).1.byte a) →
    s.pss = t.pss → s.lastEmit = t.lastEmit → s.lastValid = t.lastValid → s.ref = t.ref → s.arg.now = t.arg.now →
    exec (.notify n) s = .next s' → exec (.notify m) t = .next t' →
    Res.SameSolution s'.res t'.res ∧ s'.pss = t'.pss ∧ s'.lastEmit = t'.lastEmit ∧ s'.lastValid = t'.lastValid

/-- RESET leaves the reset state (43_control.md R210; 10_state.md R35; 60_exceptions.md R233). -/
def Obligations.ResetRestoresTheEngine : Prop :=
  encode .reset = 0x10000000#32 ∧
  ∀ s : State, ∃ t, exec .reset s = .next t ∧ t.res.err = false ∧
    t.bufA.tail = 0#6 ∧ t.bufB.tail = 0#6 ∧ (∀ a, t.bufA.isDef a = false ∧ t.bufB.isDef a = false) ∧
    t.which = .zero ∧ t.pss = ⟨0#16, 0#16, 0#16⟩ ∧ t.lastEmit = 0#64 ∧ t.lastValid = false ∧
    t.errIllegal = false ∧ t.errWindow = false ∧ t.errCount = false ∧ t.ref = Config.refDefault ∧
    t.record = s.record ∧ t.port = s.port ∧ t.arg = s.arg

/-- Power-on is the state a RESET leaves (70_reset_and_hazards.md R261; 10_state.md R35). -/
def Obligations.PowerOnEqualsReset : Prop :=
  ∀ (s t : State), exec .reset s = .next t →
    t.bufA.tail = State.reset.bufA.tail ∧ t.bufB.tail = State.reset.bufB.tail ∧
    t.bufA.defined = State.reset.bufA.defined ∧ t.bufB.defined = State.reset.bufB.defined ∧
    t.which = State.reset.which ∧ t.pss = State.reset.pss ∧ t.lastEmit = State.reset.lastEmit ∧
    t.lastValid = State.reset.lastValid ∧ t.errIllegal = State.reset.errIllegal ∧
    t.errWindow = State.reset.errWindow ∧ t.errCount = State.reset.errCount ∧ t.ref = State.reset.ref

/-- RDSTAT reads the STATUS word, bit by bit, and changes nothing (R211). -/
def Obligations.RdstatReadsTheStatusWord : Prop :=
  encode .rdstat = 0x70000000#32 ∧
  ∀ s : State, ∃ t, exec .rdstat s = .next t ∧ t.res.err = false ∧
    t = { s with res := t.res, draws := t.draws } ∧
    t.res.word.getLsbD 0 = s.errIllegal ∧ t.res.word.getLsbD 1 = s.errWindow ∧ t.res.word.getLsbD 2 = s.errCount ∧
    t.res.word.extractLsb' 8 6 = s.fill.tail ∧
    (s.fill.tail.toNat ≤ 62 → t.res.word.extractLsb' 8 6 ≠ 63#6) ∧ t.res.word.getLsbD 16 = (s.which == .one) ∧
    t.res.word.getLsbD 17 = s.lastValid ∧
    ∀ b, (3 ≤ b ∧ b ≤ 7) ∨ b = 14 ∨ b = 15 ∨ 18 ≤ b → t.res.word.getLsbD b = false

/-- A command that raises an error changes one flag and nothing else of the engine (60_exceptions.md R233; 60_exceptions.md R240; 60_exceptions.md R232). -/
def Obligations.ErrorsChangeNothingElse : Prop :=
  ∀ (s t : State), s.port ≠ [] → step s = .next t → t.res.err = true →
    ∃ e : CommandError, t.record = s.record ++ [.error e] ∧
      t = { s with errIllegal := t.errIllegal, errWindow := t.errWindow, errCount := t.errCount, record := t.record, port := t.port, arg := t.arg, res := t.res, draws := t.draws } ∧
      (t.errIllegal, t.errWindow, t.errCount) = (match e with
        | .illegalCmd => (true, s.errWindow, s.errCount)
        | .windowRange _ => (s.errIllegal, true, s.errCount)
        | .countRange _ => (s.errIllegal, s.errWindow, true))

/-- Only RESET clears an error flag (10_state.md R30; 60_exceptions.md R241). -/
def Obligations.ErrorFlagsAreSticky : Prop :=
  ∀ (s t : State), step s = .next t → (∀ c rest, s.port = c :: rest → decode c.word ≠ .legal .reset) →
    (s.errIllegal = true → t.errIllegal = true) ∧ (s.errWindow = true → t.errWindow = true) ∧
    (s.errCount = true → t.errCount = true)

/-- Whatever error flags are set, a command does the same (60_exceptions.md R241). -/
def Obligations.ErrorFlagsDoNotInfluenceCommands : Prop :=
  ∀ (i : Instr) (s s' t' : State) (x y z : Bool), i ≠ .rdstat →
    exec i s = .next s' → exec i { s with errIllegal := x, errWindow := y, errCount := z } = .next t' →
    t' = { s' with errIllegal := t'.errIllegal, errWindow := t'.errWindow, errCount := t'.errCount }

/-- No step, RESET included, clears the model's fault record (60_exceptions.md R233; 92_eei_decisions.md D32). -/
def Obligations.FaultRecordOnlyGrows : Prop :=
  ∀ (s t : State), step s = .next t → s.record <+: t.record

/-- PSS is written by the latch of a tagged frame and by RESET alone (10_state.md R28; 41_decoder.md R144; 41_decoder.md R152). -/
def Obligations.PssChangesOnlyByATaggedFrame : Prop :=
  ∀ (s t : State), step s = .next t →
    t.pss = s.pss ∨
    (∃ c rest, s.port = c :: rest ∧ decode c.word = .legal .reset ∧ t.pss = ⟨0#16, 0#16, 0#16⟩) ∨
    (∃ c rest n, s.port = c :: rest ∧ decode c.word = .legal (.notify n) ∧ t.which = s.which.other ∧
      t.cur.byte 56 = 32#8 ∧
      t.pss = ⟨t.cur.byte 47 ++ t.cur.byte 46, t.cur.byte 49 ++ t.cur.byte 48, t.cur.byte 51 ++ t.cur.byte 50⟩)

/-- LAST_EMIT and LAST_VALID are written by an emission and by RESET alone (10_state.md R29; 41_decoder.md R147). -/
def Obligations.EmissionTimeChangesOnlyByEmission : Prop :=
  ∀ (s t : State), step s = .next t →
    ((t.lastEmit = s.lastEmit ∧ t.lastValid = s.lastValid) ∨
     (∃ c rest, s.port = c :: rest ∧ decode c.word = .legal .reset ∧ t.lastEmit = 0#64 ∧ t.lastValid = false) ∨
     (∃ c rest n, s.port = c :: rest ∧ decode c.word = .legal (.notify n) ∧ t.res.err = false ∧
      (t.res.kind = 1#2 ∨ t.res.kind = 2#2) ∧ t.lastEmit = c.arg.now ∧ t.lastValid = true)) ∧
    (∀ c rest n, s.port = c :: rest → decode c.word = .legal (.notify n) → t.res.err = false →
      t.res.kind ≠ 0#2 → t.lastEmit = c.arg.now ∧ t.lastValid = true)

/-- No command writes the current buffer (10_state.md R33; 10_state.md R24). -/
def Obligations.CurrentBufferChangesOnlyByASwap : Prop :=
  ∀ (s t : State), step s = .next t → (∀ c rest, s.port = c :: rest → decode c.word ≠ .legal .reset) →
    (t.which = s.which ∧ t.cur = s.cur) ∨
    (t.which = s.which.other ∧ ∃ c rest n, s.port = c :: rest ∧ decode c.word = .legal (.notify n))

/-- The engine's invariant holds at reset (10_state.md R26; 10_state.md R27; 10_state.md R33; 10_state.md R31). -/
def Obligations.InvariantAtReset : Prop :=
  State.reset.Inv

/-- Every step keeps the engine's invariant (10_state.md R26; 10_state.md R27; 10_state.md R33; 10_state.md R31). -/
def Obligations.StepKeepsTheInvariant : Prop :=
  ∀ (s t : State), s.Inv → step s = .next t → t.Inv

/-- TRANSFORM drives XF of its two operands and changes nothing (42_geodetic.md R187). -/
def Obligations.TransformDrivesXf : Prop :=
  encode .transform = 0x50000000#32 ∧
  ∀ s : State, ∃ t, exec .transform s = .next t ∧ t.res.err = false ∧ t.res.enu = xf s.arg.p s.arg.o ∧
    t = { s with res := t.res, draws := t.draws }

/-- FROMENU drives INV of its two operands and changes nothing (42_geodetic.md R192; 30_encoding.md R82). -/
def Obligations.FromenuDrivesInv : Prop :=
  encode .fromenu = 0x60000000#32 ∧ (∃ why, decodeWith false 0x60000000#32 = .illegal why) ∧
  ∀ s : State, ∃ t, exec .fromenu s = .next t ∧ t.res.err = false ∧ t.res.pos = Config.inv s.arg.e s.arg.o ∧
    t = { s with res := t.res, draws := t.draws }

/-- fl is rounding to the nearest binary64 value, ties to even (00_scope.md R13; 93_implementation_defined.md G1). -/
def Obligations.RoundingIsToNearestEven : Prop :=
  ∀ q : ℚ, Rounds (q : ℝ) (fl q)

/-- A binary64 product, quotient or sum of finite values rounds once (00_scope.md R13). -/
def Obligations.ProductAndSumRoundOnce : Prop :=
  ∀ x y : Binary64, f64Finite x = true → f64Finite y = true →
    (f64Val x * f64Val y ≠ 0 → fmul x y = fl (f64Val x * f64Val y)) ∧
    (f64Val y ≠ 0 → f64Val x ≠ 0 → fdiv x y = fl (f64Val x / f64Val y)) ∧
    (f64Val x + f64Val y ≠ 0 → fadd x y = fl (f64Val x + f64Val y)) ∧
    (f64Val x - f64Val y ≠ 0 → fsub x y = fl (f64Val x - f64Val y)) ∧
    (f64Val x * f64Val y = 0 → f64Val (fmul x y) = 0) ∧ (f64Val x = 0 → f64Val y ≠ 0 → f64Val (fdiv x y) = 0) ∧
    (f64Val x + f64Val y = 0 → f64Val (fadd x y) = 0) ∧ (f64Val x - f64Val y = 0 → f64Val (fsub x y) = 0)

/-- The constant fl(π) is π rounded to nearest (41_decoder.md R149; 42_geodetic.md R181). -/
def Obligations.PiIsCorrectlyRounded : Prop :=
  Rounds Real.pi flPi

/-- The heading is H0 minus yaw times K, with two roundings (41_decoder.md R149). -/
def Obligations.HeadingRoundsTwice : Prop :=
  ∀ (sign : HeadingSign) (yaw : BitVec 16),
    let h0 : ℚ := (match sign with | .plus => 1 | .minus => -1) * f64Val flPi / 2
    heading sign yaw.toInt = fl (h0 - f64Val (fl (yaw.toInt * (f64Val flPi / 16384)))) ∧
    f64Val (heading sign 0) = h0

/-- XF's up is the rounded altitude difference, and a zero difference gives a zero (42_geodetic.md R189 (XF-UP, XF-ZERO); 42_geodetic.md R188). -/
def Obligations.XfUpIsExactAndZerosAreZeros : Prop :=
  ∀ p o : Wgs84,
    (xf p o).up = fl (((p.alt.toInt - o.alt.toInt : ℤ) : ℚ) * f64Val altLsb) ∧
    (p.lat = o.lat → (xf p o).north = 0#64 ∨ (xf p o).north = 0x8000000000000000#64) ∧
    (p.lon = o.lon → (xf p o).east = 0#64 ∨ (xf p o).east = 0x8000000000000000#64)

/-- REF_XF itself has the properties XF-UP and XF-ZERO (42_geodetic.md R185; 42_geodetic.md R189). -/
def Obligations.ReferenceTransformHasTheNamedProperties : Prop :=
  ∀ (l : MathLib) (p o : Wgs84), l.tan 0#64 = 0#64 →
    f64Finite (refRadius l o) = true → f64Finite (refParallel l o) = true →
    (refXf l p o).up = (xf p o).up ∧
    (p.lat = o.lat → f64Val (refXf l p o).north = 0 ∧ f64Finite (refXf l p o).north = true) ∧
    (p.lon = o.lon → f64Val (refXf l p o).east = 0 ∧ f64Finite (refXf l p o).east = true)

/-- REF_INV of a zero ENU is the offset (42_geodetic.md R192; 42_geodetic.md R191). -/
def Obligations.ReferenceInverseOfZeroIsTheOffset : Prop :=
  ∀ (l : MathLib) (o : Wgs84), l.atan 0#64 = 0#64 → l.atan 0x8000000000000000#64 = 0x8000000000000000#64 →
    f64NaN (refRadius l o) = false → f64NaN (refParallel l o) = false →
    (f64Finite (refRadius l o) = true → f64Val (refRadius l o) ≠ 0) →
    (f64Finite (refParallel l o) = true → f64Val (refParallel l o) ≠ 0) →
    refInv l ⟨0#64, 0#64, 0#64⟩ o = some o

/-- RNI is rounding to the nearest integer, ties to even (42_geodetic.md R191). -/
def Obligations.RniIsToNearestEven : Prop :=
  ∀ x : Binary64, f64Finite x = true → RoundsToInt (f64Val x : ℝ) (rni x)

/-- A FEED puts its bytes into the window and reports them all (30_encoding.md R86; 70_reset_and_hazards.md R263). -/
def Obligations.FeedDeliversItsBytes : Prop :=
  ∀ (s : State) (arg : Arg) (now : BitVec 64) (bytes : List Byte), bytes.length ≤ 63 - s.fill.tail.toNat →
    ∃ (u t : State) (rs : List Res),
      run (feed arg now bytes) s = some (t, rs) ∧ rs.length = bytes.length + 2 ∧ (∀ r ∈ rs, r.err = false) ∧
      exec (.notify (BitVec.ofNat 6 bytes.length)) u = .next t ∧ t.record = s.record ∧ u.arg.now = now ∧
      u = { s with bufA := u.bufA, bufB := u.bufB, port := u.port, arg := u.arg, res := u.res, draws := u.draws } ∧
      u.cur = s.cur ∧ u.fill.tail = s.fill.tail ∧
      (∀ j, j < bytes.length → u.fill.byte (s.fill.tail.toNat + j) = bytes.getD j 0#8) ∧
      (∀ a, a < s.fill.tail.toNat ∨ s.fill.tail.toNat + bytes.length ≤ a → u.fill.byte a = s.fill.byte a)

/-- Garbage before a frame, in any chunking that ends with a non-empty FEED, does not change the frame's Solution (40_frame_buffer.md R122; 90_conflicts.md C7). -/
def Obligations.GarbageThenFrameGivesTheFrame : Prop :=
  ∀ (s : State) (arg : Arg) (garbage frame : List Byte) (chunks : List (BitVec 64 × List Byte)) (now : BitVec 64)
      (last : List Byte) (t t' : State) (rs rs' : List Res),
    s.fill.tail = 0#6 → FrameBytesOk frame → frame.take 3 = [0xBD#8, 0xDB#8, 0x0B#8] →
    (∀ q, q < garbage.length → ((garbage ++ frame).drop q).take 3 = [0xBD#8, 0xDB#8, 0x0B#8] →
      ¬ FrameBytesOk (((garbage ++ frame).drop q).take 63)) →
    ((chunks ++ [(now, last)]).map Prod.snd).flatten = garbage ++ frame → last ≠ [] →
    FeedsFit arg (chunks ++ [(now, last)]) s →
    run (feeds arg (chunks ++ [(now, last)])) s = some (t, rs) → run (feed arg now frame) s = some (t', rs') →
    Res.SameSolution t.res t'.res
end

