-- ==== Sys2Proof/Laws/Decode.lean ====
section
/-! SUPPORT. The fields of an encoded word. -/

namespace Sys2Proof

@[simp] theorem opField_commandWord (op : BitVec 4) (idx : BitVec 6) (dat : Byte) :
    opField (commandWord op idx dat) = op := by
  apply BitVec.eq_of_getLsbD_eq
  intro k hk
  simp only [opField, commandWord, BitVec.getLsbD_extractLsb', BitVec.getLsbD_append]
  have h1 : ¬ 28 + k < 8 := by omega
  have h2 : ¬ 28 + k - 8 < 6 := by omega
  have h3 : ¬ 28 + k - 8 - 6 < 14 := by omega
  have h4 : 28 + k - 8 - 6 - 14 = k := by omega
  simp [h1, h2, h3, h4, hk]

@[simp] theorem rsvField_commandWord (op : BitVec 4) (idx : BitVec 6) (dat : Byte) :
    rsvField (commandWord op idx dat) = 0#14 := by
  apply BitVec.eq_of_getLsbD_eq
  intro k hk
  simp only [rsvField, commandWord, BitVec.getLsbD_extractLsb', BitVec.getLsbD_append]
  have h1 : ¬ 14 + k < 8 := by omega
  have h2 : ¬ 14 + k - 8 < 6 := by omega
  have h3 : 14 + k - 8 - 6 < 14 := by omega
  simp [h1, h2, h3]

@[simp] theorem idxField_commandWord (op : BitVec 4) (idx : BitVec 6) (dat : Byte) :
    idxField (commandWord op idx dat) = idx := by
  apply BitVec.eq_of_getLsbD_eq
  intro k hk
  simp only [idxField, commandWord, BitVec.getLsbD_extractLsb', BitVec.getLsbD_append]
  have h1 : ¬ 8 + k < 8 := by omega
  have h2 : 8 + k - 8 < 6 := by omega
  have h3 : 8 + k - 8 = k := by omega
  simp [h1, h3, hk]

@[simp] theorem dataField_commandWord (op : BitVec 4) (idx : BitVec 6) (dat : Byte) :
    dataField (commandWord op idx dat) = dat := by
  apply BitVec.eq_of_getLsbD_eq
  intro k hk
  simp only [dataField, commandWord, BitVec.getLsbD_extractLsb', BitVec.getLsbD_append]
  simp [hk]

/-- A word is made of its four fields (30_encoding.md R78). -/
theorem word_of_fields (w : CmdWord) (h : rsvField w = 0#14) :
    commandWord (opField w) (idxField w) (dataField w) = w := by
  apply BitVec.eq_of_getLsbD_eq
  intro k hk
  have hz : ∀ j, j < 14 → w.getLsbD (14 + j) = false := fun j hj => by
    have := congrArg (fun b => b.getLsbD j) h
    simpa [rsvField, hj] using this
  simp only [commandWord, opField, idxField, dataField, BitVec.getLsbD_append, BitVec.getLsbD_extractLsb']
  by_cases h1 : k < 8
  · simp [h1]
  · by_cases h2 : k - 8 < 6
    · have : 8 + (k - 8) = k := by omega
      simp [h1, h2, this]
    · by_cases h3 : k - 8 - 6 < 14
      · have h4 := hz (k - 8 - 6) h3
        have : 14 + (k - 8 - 6) = k := by omega
        rw [this] at h4
        simp [h1, h2, h3, h4]
      · have h4 : 28 + (k - 8 - 6 - 14) = k := by omega
        have h5 : k - 8 - 6 - 14 < 4 := by omega
        simp [h1, h2, h3, h4, h5]

/-- What `noData` answers. -/
theorem noData_legal {w : CmdWord} {i j : Instr} : noData w i = .legal j ↔ dataField w = 0 ∧ i = j := by
  unfold noData; split <;> simp_all

/-- What `noOperands` answers. -/
theorem noOperands_legal {w : CmdWord} {i j : Instr} :
    noOperands w i = .legal j ↔ idxField w = 0 ∧ dataField w = 0 ∧ i = j := by
  unfold noOperands; split <;> simp_all [noData_legal]

/-- Decoding answers an instruction or a reason, never both. -/
theorem decodeWith_cases (h : Bool) (w : CmdWord) :
    (∃ i, decodeWith h w = .legal i) ∨ ∃ why, decodeWith h w = .illegal why := by
  cases decodeWith h w <;> simp

end Sys2Proof
end

