-- ==== Sys2Proof/Laws/State.lean ====
section
/-! SUPPORT. What each update of the state does to each field: one lemma per field per update, so that no
later proof unfolds a record update; and what the updates do to the current and the filling buffer. -/

namespace Sys2Proof.Machine

namespace State

variable (s : State)

@[simp] theorem setBuf_bufA (b : BufId) (f : FrameBuffer) : (s.setBuf b f).bufA = if b = .zero then f else s.bufA := rfl
@[simp] theorem setBuf_bufB (b : BufId) (f : FrameBuffer) : (s.setBuf b f).bufB = if b = .one then f else s.bufB := rfl
@[simp] theorem setBuf_which (b : BufId) (f : FrameBuffer) : (s.setBuf b f).which = s.which := rfl
@[simp] theorem setBuf_pss (b : BufId) (f : FrameBuffer) : (s.setBuf b f).pss = s.pss := rfl
@[simp] theorem setBuf_lastEmit (b : BufId) (f : FrameBuffer) : (s.setBuf b f).lastEmit = s.lastEmit := rfl
@[simp] theorem setBuf_lastValid (b : BufId) (f : FrameBuffer) : (s.setBuf b f).lastValid = s.lastValid := rfl
@[simp] theorem setBuf_errIllegal (b : BufId) (f : FrameBuffer) : (s.setBuf b f).errIllegal = s.errIllegal := rfl
@[simp] theorem setBuf_errWindow (b : BufId) (f : FrameBuffer) : (s.setBuf b f).errWindow = s.errWindow := rfl
@[simp] theorem setBuf_errCount (b : BufId) (f : FrameBuffer) : (s.setBuf b f).errCount = s.errCount := rfl
@[simp] theorem setBuf_ref (b : BufId) (f : FrameBuffer) : (s.setBuf b f).ref = s.ref := rfl
@[simp] theorem setBuf_record (b : BufId) (f : FrameBuffer) : (s.setBuf b f).record = s.record := rfl
@[simp] theorem setBuf_port (b : BufId) (f : FrameBuffer) : (s.setBuf b f).port = s.port := rfl
@[simp] theorem setBuf_arg (b : BufId) (f : FrameBuffer) : (s.setBuf b f).arg = s.arg := rfl
@[simp] theorem setBuf_res (b : BufId) (f : FrameBuffer) : (s.setBuf b f).res = s.res := rfl
@[simp] theorem setBuf_draws (b : BufId) (f : FrameBuffer) : (s.setBuf b f).draws = s.draws := rfl

@[simp] theorem setFill_bufA (f : FrameBuffer) : (s.setFill f).bufA = if s.which.other = .zero then f else s.bufA := rfl
@[simp] theorem setFill_bufB (f : FrameBuffer) : (s.setFill f).bufB = if s.which.other = .one then f else s.bufB := rfl
@[simp] theorem setFill_which (f : FrameBuffer) : (s.setFill f).which = s.which := rfl
@[simp] theorem setFill_pss (f : FrameBuffer) : (s.setFill f).pss = s.pss := rfl
@[simp] theorem setFill_lastEmit (f : FrameBuffer) : (s.setFill f).lastEmit = s.lastEmit := rfl
@[simp] theorem setFill_lastValid (f : FrameBuffer) : (s.setFill f).lastValid = s.lastValid := rfl
@[simp] theorem setFill_errIllegal (f : FrameBuffer) : (s.setFill f).errIllegal = s.errIllegal := rfl
@[simp] theorem setFill_errWindow (f : FrameBuffer) : (s.setFill f).errWindow = s.errWindow := rfl
@[simp] theorem setFill_errCount (f : FrameBuffer) : (s.setFill f).errCount = s.errCount := rfl
@[simp] theorem setFill_ref (f : FrameBuffer) : (s.setFill f).ref = s.ref := rfl
@[simp] theorem setFill_record (f : FrameBuffer) : (s.setFill f).record = s.record := rfl
@[simp] theorem setFill_port (f : FrameBuffer) : (s.setFill f).port = s.port := rfl
@[simp] theorem setFill_arg (f : FrameBuffer) : (s.setFill f).arg = s.arg := rfl
@[simp] theorem setFill_res (f : FrameBuffer) : (s.setFill f).res = s.res := rfl
@[simp] theorem setFill_draws (f : FrameBuffer) : (s.setFill f).draws = s.draws := rfl

@[simp] theorem respond_bufA (d : Res → Res) : (s.respond d).bufA = s.bufA := rfl
@[simp] theorem respond_bufB (d : Res → Res) : (s.respond d).bufB = s.bufB := rfl
@[simp] theorem respond_which (d : Res → Res) : (s.respond d).which = s.which := rfl
@[simp] theorem respond_pss (d : Res → Res) : (s.respond d).pss = s.pss := rfl
@[simp] theorem respond_lastEmit (d : Res → Res) : (s.respond d).lastEmit = s.lastEmit := rfl
@[simp] theorem respond_lastValid (d : Res → Res) : (s.respond d).lastValid = s.lastValid := rfl
@[simp] theorem respond_errIllegal (d : Res → Res) : (s.respond d).errIllegal = s.errIllegal := rfl
@[simp] theorem respond_errWindow (d : Res → Res) : (s.respond d).errWindow = s.errWindow := rfl
@[simp] theorem respond_errCount (d : Res → Res) : (s.respond d).errCount = s.errCount := rfl
@[simp] theorem respond_ref (d : Res → Res) : (s.respond d).ref = s.ref := rfl
@[simp] theorem respond_record (d : Res → Res) : (s.respond d).record = s.record := rfl
@[simp] theorem respond_port (d : Res → Res) : (s.respond d).port = s.port := rfl
@[simp] theorem respond_arg (d : Res → Res) : (s.respond d).arg = s.arg := rfl
@[simp] theorem respond_res (d : Res → Res) : (s.respond d).res = d (Config.freeRes s.draws) := rfl
@[simp] theorem respond_draws (d : Res → Res) : (s.respond d).draws = s.draws + 1 := rfl

@[simp] theorem note_bufA (r : RecordedFault) : (s.note r).bufA = s.bufA := rfl
@[simp] theorem note_bufB (r : RecordedFault) : (s.note r).bufB = s.bufB := rfl
@[simp] theorem note_which (r : RecordedFault) : (s.note r).which = s.which := rfl
@[simp] theorem note_pss (r : RecordedFault) : (s.note r).pss = s.pss := rfl
@[simp] theorem note_lastEmit (r : RecordedFault) : (s.note r).lastEmit = s.lastEmit := rfl
@[simp] theorem note_lastValid (r : RecordedFault) : (s.note r).lastValid = s.lastValid := rfl
@[simp] theorem note_errIllegal (r : RecordedFault) : (s.note r).errIllegal = s.errIllegal := rfl
@[simp] theorem note_errWindow (r : RecordedFault) : (s.note r).errWindow = s.errWindow := rfl
@[simp] theorem note_errCount (r : RecordedFault) : (s.note r).errCount = s.errCount := rfl
@[simp] theorem note_ref (r : RecordedFault) : (s.note r).ref = s.ref := rfl
@[simp] theorem note_record (r : RecordedFault) : (s.note r).record = s.record ++ [r] := rfl
@[simp] theorem note_port (r : RecordedFault) : (s.note r).port = s.port := rfl
@[simp] theorem note_arg (r : RecordedFault) : (s.note r).arg = s.arg := rfl
@[simp] theorem note_res (r : RecordedFault) : (s.note r).res = s.res := rfl
@[simp] theorem note_draws (r : RecordedFault) : (s.note r).draws = s.draws := rfl

@[simp] theorem noteUndef_bufA (n : Nat) : (s.noteUndef n).bufA = s.bufA := rfl
@[simp] theorem noteUndef_bufB (n : Nat) : (s.noteUndef n).bufB = s.bufB := rfl
@[simp] theorem noteUndef_which (n : Nat) : (s.noteUndef n).which = s.which := rfl
@[simp] theorem noteUndef_pss (n : Nat) : (s.noteUndef n).pss = s.pss := rfl
@[simp] theorem noteUndef_lastEmit (n : Nat) : (s.noteUndef n).lastEmit = s.lastEmit := rfl
@[simp] theorem noteUndef_lastValid (n : Nat) : (s.noteUndef n).lastValid = s.lastValid := rfl
@[simp] theorem noteUndef_errIllegal (n : Nat) : (s.noteUndef n).errIllegal = s.errIllegal := rfl
@[simp] theorem noteUndef_errWindow (n : Nat) : (s.noteUndef n).errWindow = s.errWindow := rfl
@[simp] theorem noteUndef_errCount (n : Nat) : (s.noteUndef n).errCount = s.errCount := rfl
@[simp] theorem noteUndef_ref (n : Nat) : (s.noteUndef n).ref = s.ref := rfl
@[simp] theorem noteUndef_record (n : Nat) : (s.noteUndef n).record = s.record ++ ((s.fill.firstUndef n).map RecordedFault.hostUndef).toList := rfl
@[simp] theorem noteUndef_port (n : Nat) : (s.noteUndef n).port = s.port := rfl
@[simp] theorem noteUndef_arg (n : Nat) : (s.noteUndef n).arg = s.arg := rfl
@[simp] theorem noteUndef_res (n : Nat) : (s.noteUndef n).res = s.res := rfl
@[simp] theorem noteUndef_draws (n : Nat) : (s.noteUndef n).draws = s.draws := rfl

@[simp] theorem raise_bufA (e : CommandError) : (s.raise e).bufA = s.bufA := rfl
@[simp] theorem raise_bufB (e : CommandError) : (s.raise e).bufB = s.bufB := rfl
@[simp] theorem raise_which (e : CommandError) : (s.raise e).which = s.which := rfl
@[simp] theorem raise_pss (e : CommandError) : (s.raise e).pss = s.pss := rfl
@[simp] theorem raise_lastEmit (e : CommandError) : (s.raise e).lastEmit = s.lastEmit := rfl
@[simp] theorem raise_lastValid (e : CommandError) : (s.raise e).lastValid = s.lastValid := rfl
@[simp] theorem raise_errIllegal (e : CommandError) : (s.raise e).errIllegal = (s.errIllegal || (e matches .illegalCmd)) := rfl
@[simp] theorem raise_errWindow (e : CommandError) : (s.raise e).errWindow = (s.errWindow || (e matches .windowRange _)) := rfl
@[simp] theorem raise_errCount (e : CommandError) : (s.raise e).errCount = (s.errCount || (e matches .countRange _)) := rfl
@[simp] theorem raise_ref (e : CommandError) : (s.raise e).ref = s.ref := rfl
@[simp] theorem raise_record (e : CommandError) : (s.raise e).record = s.record ++ [.error e] := rfl
@[simp] theorem raise_port (e : CommandError) : (s.raise e).port = s.port := rfl
@[simp] theorem raise_arg (e : CommandError) : (s.raise e).arg = s.arg := rfl
@[simp] theorem raise_res (e : CommandError) : (s.raise e).res = { Config.freeRes s.draws with err := true } := rfl
@[simp] theorem raise_draws (e : CommandError) : (s.raise e).draws = s.draws + 1 := rfl

@[simp] theorem swap_bufA : (s.swap).bufA = if s.which = .zero then FrameBuffer.blank s.draws else s.bufA := rfl
@[simp] theorem swap_bufB : (s.swap).bufB = if s.which = .one then FrameBuffer.blank s.draws else s.bufB := rfl
@[simp] theorem swap_which : (s.swap).which = s.which.other := rfl
@[simp] theorem swap_pss : (s.swap).pss = s.pss := rfl
@[simp] theorem swap_lastEmit : (s.swap).lastEmit = s.lastEmit := rfl
@[simp] theorem swap_lastValid : (s.swap).lastValid = s.lastValid := rfl
@[simp] theorem swap_errIllegal : (s.swap).errIllegal = s.errIllegal := rfl
@[simp] theorem swap_errWindow : (s.swap).errWindow = s.errWindow := rfl
@[simp] theorem swap_errCount : (s.swap).errCount = s.errCount := rfl
@[simp] theorem swap_ref : (s.swap).ref = s.ref := rfl
@[simp] theorem swap_record : (s.swap).record = s.record := rfl
@[simp] theorem swap_port : (s.swap).port = s.port := rfl
@[simp] theorem swap_arg : (s.swap).arg = s.arg := rfl
@[simp] theorem swap_res : (s.swap).res = s.res := rfl
@[simp] theorem swap_draws : (s.swap).draws = s.draws + 1 := rfl

@[simp] theorem latch_bufA : (s.latch).bufA = s.bufA := rfl
@[simp] theorem latch_bufB : (s.latch).bufB = s.bufB := rfl
@[simp] theorem latch_which : (s.latch).which = s.which := rfl
@[simp] theorem latch_pss : (s.latch).pss = if s.tagByte = tagState then s.extra else s.pss := rfl
@[simp] theorem latch_lastEmit : (s.latch).lastEmit = s.lastEmit := rfl
@[simp] theorem latch_lastValid : (s.latch).lastValid = s.lastValid := rfl
@[simp] theorem latch_errIllegal : (s.latch).errIllegal = s.errIllegal := rfl
@[simp] theorem latch_errWindow : (s.latch).errWindow = s.errWindow := rfl
@[simp] theorem latch_errCount : (s.latch).errCount = s.errCount := rfl
@[simp] theorem latch_ref : (s.latch).ref = s.ref := rfl
@[simp] theorem latch_record : (s.latch).record = s.record := rfl
@[simp] theorem latch_port : (s.latch).port = s.port := rfl
@[simp] theorem latch_arg : (s.latch).arg = s.arg := rfl
@[simp] theorem latch_res : (s.latch).res = s.res := rfl
@[simp] theorem latch_draws : (s.latch).draws = s.draws := rfl

@[simp] theorem emit_bufA : (s.emit).bufA = s.bufA := rfl
@[simp] theorem emit_bufB : (s.emit).bufB = s.bufB := rfl
@[simp] theorem emit_which : (s.emit).which = s.which := rfl
@[simp] theorem emit_pss : (s.emit).pss = s.pss := rfl
@[simp] theorem emit_lastEmit : (s.emit).lastEmit = s.arg.now := rfl
@[simp] theorem emit_lastValid : (s.emit).lastValid = true := rfl
@[simp] theorem emit_errIllegal : (s.emit).errIllegal = s.errIllegal := rfl
@[simp] theorem emit_errWindow : (s.emit).errWindow = s.errWindow := rfl
@[simp] theorem emit_errCount : (s.emit).errCount = s.errCount := rfl
@[simp] theorem emit_ref : (s.emit).ref = s.ref := rfl
@[simp] theorem emit_record : (s.emit).record = s.record := rfl
@[simp] theorem emit_port : (s.emit).port = s.port := rfl
@[simp] theorem emit_arg : (s.emit).arg = s.arg := rfl
@[simp] theorem emit_res : (s.emit).res = s.res := rfl
@[simp] theorem emit_draws : (s.emit).draws = s.draws := rfl

@[simp] theorem accept_bufA (c : Command) (l : List Command) : (s.accept c l).bufA = s.bufA := rfl
@[simp] theorem accept_bufB (c : Command) (l : List Command) : (s.accept c l).bufB = s.bufB := rfl
@[simp] theorem accept_which (c : Command) (l : List Command) : (s.accept c l).which = s.which := rfl
@[simp] theorem accept_pss (c : Command) (l : List Command) : (s.accept c l).pss = s.pss := rfl
@[simp] theorem accept_lastEmit (c : Command) (l : List Command) : (s.accept c l).lastEmit = s.lastEmit := rfl
@[simp] theorem accept_lastValid (c : Command) (l : List Command) : (s.accept c l).lastValid = s.lastValid := rfl
@[simp] theorem accept_errIllegal (c : Command) (l : List Command) : (s.accept c l).errIllegal = s.errIllegal := rfl
@[simp] theorem accept_errWindow (c : Command) (l : List Command) : (s.accept c l).errWindow = s.errWindow := rfl
@[simp] theorem accept_errCount (c : Command) (l : List Command) : (s.accept c l).errCount = s.errCount := rfl
@[simp] theorem accept_ref (c : Command) (l : List Command) : (s.accept c l).ref = s.ref := rfl
@[simp] theorem accept_record (c : Command) (l : List Command) : (s.accept c l).record = s.record := rfl
@[simp] theorem accept_port (c : Command) (l : List Command) : (s.accept c l).port = l := rfl
@[simp] theorem accept_arg (c : Command) (l : List Command) : (s.accept c l).arg = c.arg := rfl
@[simp] theorem accept_res (c : Command) (l : List Command) : (s.accept c l).res = s.res := rfl
@[simp] theorem accept_draws (c : Command) (l : List Command) : (s.accept c l).draws = s.draws := rfl

@[simp] theorem solveNothing_bufA : (s.solveNothing).bufA = s.bufA := rfl
@[simp] theorem solveNothing_bufB : (s.solveNothing).bufB = s.bufB := rfl
@[simp] theorem solveNothing_which : (s.solveNothing).which = s.which := rfl
@[simp] theorem solveNothing_pss : (s.solveNothing).pss = s.pss := rfl
@[simp] theorem solveNothing_lastEmit : (s.solveNothing).lastEmit = s.lastEmit := rfl
@[simp] theorem solveNothing_lastValid : (s.solveNothing).lastValid = s.lastValid := rfl
@[simp] theorem solveNothing_errIllegal : (s.solveNothing).errIllegal = s.errIllegal := rfl
@[simp] theorem solveNothing_errWindow : (s.solveNothing).errWindow = s.errWindow := rfl
@[simp] theorem solveNothing_errCount : (s.solveNothing).errCount = s.errCount := rfl
@[simp] theorem solveNothing_ref : (s.solveNothing).ref = s.ref := rfl
@[simp] theorem solveNothing_record : (s.solveNothing).record = s.record := rfl
@[simp] theorem solveNothing_port : (s.solveNothing).port = s.port := rfl
@[simp] theorem solveNothing_arg : (s.solveNothing).arg = s.arg := rfl
@[simp] theorem solveNothing_res : (s.solveNothing).res = { Config.freeRes s.draws with err := false, kind := 0#2 } := rfl
@[simp] theorem solveNothing_draws : (s.solveNothing).draws = s.draws + 1 := rfl

@[simp] theorem solve_bufA : s.solve.bufA = s.bufA := by unfold solve; split <;> rfl
@[simp] theorem solve_bufB : s.solve.bufB = s.bufB := by unfold solve; split <;> rfl
@[simp] theorem solve_which : s.solve.which = s.which := by unfold solve; split <;> rfl
@[simp] theorem solve_pss : s.solve.pss = s.pss := by unfold solve; split <;> rfl
@[simp] theorem solve_lastEmit : s.solve.lastEmit = s.lastEmit := by unfold solve; split <;> rfl
@[simp] theorem solve_lastValid : s.solve.lastValid = s.lastValid := by unfold solve; split <;> rfl
@[simp] theorem solve_errIllegal : s.solve.errIllegal = s.errIllegal := by unfold solve; split <;> rfl
@[simp] theorem solve_errWindow : s.solve.errWindow = s.errWindow := by unfold solve; split <;> rfl
@[simp] theorem solve_errCount : s.solve.errCount = s.errCount := by unfold solve; split <;> rfl
@[simp] theorem solve_ref : s.solve.ref = s.ref := by unfold solve; split <;> rfl
@[simp] theorem solve_record : s.solve.record = s.record := by unfold solve; split <;> rfl
@[simp] theorem solve_port : s.solve.port = s.port := by unfold solve; split <;> rfl
@[simp] theorem solve_arg : s.solve.arg = s.arg := by unfold solve; split <;> rfl
@[simp] theorem solve_draws : s.solve.draws = s.draws + 1 := by unfold solve; split <;> rfl

@[simp] theorem other_other (b : BufId) : b.other.other = b := by cases b <;> rfl
@[simp] theorem other_ne (b : BufId) : b.other ≠ b := by cases b <;> decide
@[simp] theorem ne_other (b : BufId) : b ≠ b.other := by cases b <;> decide

theorem buf_setBuf (b c : BufId) (f : FrameBuffer) : (s.setBuf b f).buf c = if b = c then f else s.buf c := by
  cases b <;> cases c <;> rfl

@[simp] theorem fill_setFill (f : FrameBuffer) : (s.setFill f).fill = f := by
  cases h : s.which <;> simp [fill, setFill, buf, setBuf, BufId.other, h]

@[simp] theorem cur_setFill (f : FrameBuffer) : (s.setFill f).cur = s.cur := by
  cases h : s.which <;> simp [cur, setFill, buf, setBuf, BufId.other, h]

/-- After SWAP the buffer that was filling is the current one (41_decoder.md R143). -/
@[simp] theorem cur_swap : s.swap.cur = s.fill := by
  cases h : s.which <;> simp [cur, fill, swap, buf, setBuf, BufId.other, h]

/-- After SWAP the recycled buffer is the filling one, empty, none of its bytes defined or known (R143). -/
@[simp] theorem fill_swap : s.swap.fill = FrameBuffer.blank s.draws := by
  cases h : s.which <;> simp [fill, swap, buf, setBuf, BufId.other, h]

@[simp] theorem cur_respond (d : Res → Res) : (s.respond d).cur = s.cur := rfl
@[simp] theorem fill_respond (d : Res → Res) : (s.respond d).fill = s.fill := rfl
@[simp] theorem cur_note (r : RecordedFault) : (s.note r).cur = s.cur := rfl
@[simp] theorem fill_note (r : RecordedFault) : (s.note r).fill = s.fill := rfl
@[simp] theorem cur_noteUndef (n : Nat) : (s.noteUndef n).cur = s.cur := rfl
@[simp] theorem fill_noteUndef (n : Nat) : (s.noteUndef n).fill = s.fill := rfl
@[simp] theorem cur_raise (e : CommandError) : (s.raise e).cur = s.cur := rfl
@[simp] theorem fill_raise (e : CommandError) : (s.raise e).fill = s.fill := rfl
@[simp] theorem cur_latch : (s.latch).cur = s.cur := rfl
@[simp] theorem fill_latch : (s.latch).fill = s.fill := rfl
@[simp] theorem cur_emit : (s.emit).cur = s.cur := rfl
@[simp] theorem fill_emit : (s.emit).fill = s.fill := rfl
@[simp] theorem cur_accept (c : Command) (l : List Command) : (s.accept c l).cur = s.cur := rfl
@[simp] theorem fill_accept (c : Command) (l : List Command) : (s.accept c l).fill = s.fill := rfl
@[simp] theorem cur_solveNothing : (s.solveNothing).cur = s.cur := rfl
@[simp] theorem fill_solveNothing : (s.solveNothing).fill = s.fill := rfl
@[simp] theorem cur_solve : s.solve.cur = s.cur := by unfold solve; split <;> rfl
@[simp] theorem fill_solve : s.solve.fill = s.fill := by unfold solve; split <;> rfl

end State

end Sys2Proof.Machine
end

