-- ==== Sys2Proof/Laws/FrameBuffer.lean ====
section
/-! SUPPORT. The bytes and DEF bits of a frame buffer: read after write, and that every operation keeps the
one form of the bytes; what the search, SHIFT, DISCARD and RESYNC do. -/

namespace Sys2Proof.Machine

/-! ### Bytes -/

theorem read_write (m : Memory) (i j : Nat) (v : Byte) :
    (m.write i v).read? j = if i = j then some v else m.read? j := by
  induction m with
  | nil => simp [Memory.write, Memory.read?]
  | cons c m ih =>
    simp only [Memory.write]
    split
    · simp [Memory.read?]
    · split
      · subst i
        by_cases h : c.1 = j <;> simp [Memory.read?, h]
      · simp only [Memory.read?, ih]
        by_cases h : c.1 = j
        · have : i ≠ j := by omega
          simp [h, this]
        · simp [h]

theorem write_bound {m : Memory} {i : Nat} {v : Byte} {c : Host.Cell} (h : c ∈ m.write i v) :
    c = (i, v) ∨ c ∈ m := by
  induction m with
  | nil => simpa [Memory.write] using h
  | cons d m ih =>
    simp only [Memory.write] at h
    split at h
    · simpa using h
    · split at h
      · rcases List.mem_cons.1 h with h | h <;> simp [h]
      · rcases List.mem_cons.1 h with h | h
        · simp [h]
        · rcases ih h with h | h <;> simp [h]

/-- A write keeps the one form. -/
theorem write_wf {m : Memory} (hm : m.wf) {i : Nat} (hi : i < 63) (v : Byte) : (m.write i v).wf := by
  refine ⟨?_, fun c hc => ?_⟩
  · replace hm := hm.1
    induction m with
    | nil => simp [Memory.write]
    | cons c m ih =>
      obtain ⟨hc, hm⟩ := List.pairwise_cons.1 hm
      simp only [Memory.write]
      split
      · next hlt => exact List.pairwise_cons.2 ⟨fun x hx => by
          rcases List.mem_cons.1 hx with rfl | hx
          · exact hlt
          · exact Nat.lt_trans hlt (hc x hx), List.pairwise_cons.2 ⟨hc, hm⟩⟩
      · split
        · next heq => exact List.pairwise_cons.2 ⟨fun x hx => by simpa [heq] using hc x hx, hm⟩
        · next hlt hne =>
          refine List.pairwise_cons.2 ⟨fun x hx => ?_, ih hm⟩
          rcases write_bound hx with rfl | hx
          · show c.1 < i
            omega
          · exact hc x hx
  · rcases write_bound hc with rfl | hc
    · exact hi
    · exact hm.2 c hc

@[simp] theorem byte_setTail (f : FrameBuffer) (len i : Nat) : (f.setTail len).byte i = f.byte i := rfl
@[simp] theorem isDef_setTail (f : FrameBuffer) (len i : Nat) : (f.setTail len).isDef i = f.isDef i := rfl
@[simp] theorem slice_setTail (f : FrameBuffer) (len lo hi : Nat) : (f.setTail len).slice lo hi = f.slice lo hi := rfl
@[simp] theorem frameOk_setTail (f : FrameBuffer) (len : Nat) : (f.setTail len).frameOk = f.frameOk := rfl

/-- Read after write, one byte of a frame buffer. -/
theorem byte_write (f : FrameBuffer) (i j : Nat) (v : Byte) :
    (f.write i v).byte j = if i = j then v else f.byte j := by
  simp only [FrameBuffer.byte, FrameBuffer.write, read_write]
  by_cases h : i = j <;> simp [h]

theorem isDef_write (f : FrameBuffer) (i j : Nat) (v : Byte) (hi : i < 63) :
    (f.write i v).isDef j = (f.isDef j || decide (i = j)) := by
  simp [FrameBuffer.isDef, FrameBuffer.write, BitVec.getLsbD_or, BitVec.getLsbD_twoPow, hi]

@[simp] theorem tail_write (f : FrameBuffer) (i : Nat) (v : Byte) : (f.write i v).tail = f.tail := rfl

theorem length_slice (f : FrameBuffer) (lo hi : Nat) : (f.slice lo hi).length = hi - lo := by
  simp [FrameBuffer.slice]

theorem slice_succ (f : FrameBuffer) (lo hi : Nat) (h : lo < hi) :
    f.slice lo hi = f.byte lo :: f.slice (lo + 1) hi := by
  obtain ⟨d, rfl⟩ : ∃ d, hi = lo + (d + 1) := ⟨hi - lo - 1, by omega⟩
  have h1 : lo + (d + 1) - lo = d + 1 := by omega
  have h2 : lo + (d + 1) - (lo + 1) = d := by omega
  simp only [FrameBuffer.slice, h1, h2, List.range_succ_eq_map, List.map_cons, List.map_map, Nat.add_zero]
  congr 1
  apply List.map_congr_left
  intro j _
  simp only [Function.comp_apply]
  congr 1
  omega

theorem slice_empty (f : FrameBuffer) (lo : Nat) : f.slice lo lo = [] := by simp [FrameBuffer.slice]

theorem slice_congr {f g : FrameBuffer} {lo hi : Nat} (h : ∀ j, lo ≤ j → j < hi → f.byte j = g.byte j) :
    f.slice lo hi = g.slice lo hi :=
  List.map_congr_left fun j hj => by
    have := List.mem_range.1 hj
    exact h _ (by omega) (by omega)

/-- FRAME_OK depends on the 63 bytes alone. -/
theorem frameOk_congr {f g : FrameBuffer} (h : ∀ j, j < 63 → f.byte j = g.byte j) : f.frameOk = g.frameOk := by
  unfold FrameBuffer.frameOk
  rw [slice_congr fun j _ h2 => h j (by omega), slice_congr fun j _ h2 => h j (by omega)]

/-- A listing of consecutive offsets reads back. -/
theorem read_listing (g : Nat → Byte) (n j : Nat) :
    Memory.read? ((List.range n).map fun k => (k, g k)) j = if j < n then some (g j) else none := by
  induction n generalizing g j with
  | zero => simp [Memory.read?]
  | succ n ih =>
    have shift : ∀ (m : List Nat) (j : Nat),
        Memory.read? (m.map fun k => (k + 1, g (k + 1))) (j + 1) = Memory.read? (m.map fun k => (k, g (k + 1))) j := by
      intro m j
      induction m with
      | nil => rfl
      | cons k m ihm => simp [Memory.read?, ihm]
    have nohead : ∀ m : List Nat, Memory.read? (m.map fun k => (k + 1, g (k + 1))) 0 = none := by
      intro m
      induction m with
      | nil => rfl
      | cons k m ihm => simp [Memory.read?, ihm]
    rw [List.range_succ_eq_map]
    cases j with
    | zero => simp [Memory.read?]
    | succ j =>
      simp only [List.map_cons, List.map_map, Memory.read?]
      rw [if_neg (by omega)]
      show Memory.read? (List.map (fun k => (k + 1, g (k + 1))) (List.range n)) (j + 1) = _
      rw [shift, ih (fun k => g (k + 1)) j]
      simp

/-! ### SHIFT and DISCARD -/

theorem getLsbD_shiftDef (d : BitVec 63) (p e j : Nat) (he : e ≤ 63) :
    (shiftDef d p e).getLsbD j = (decide (p + j < e) && d.getLsbD (p + j)) := by
  unfold shiftDef
  rw [BitVec.getLsbD_ushiftRight, BitVec.getLsbD_shiftLeft]
  by_cases h : p + j < e
  · have h1 : 63 - e + p + j < 63 := by omega
    have h2 : ¬ 63 - e + p + j < 63 - e := by omega
    have h3 : 63 - e + p + j - (63 - e) = p + j := by omega
    simp [h, h1, h2, h3]
  · have h1 : ¬ 63 - e + p + j < 63 := by omega
    simp [h, h1]

theorem byte_shift (f : FrameBuffer) (p e draw j : Nat) (hj : j < e - p) :
    (f.shift p e draw).byte j = f.byte (p + j) := by
  unfold FrameBuffer.shift
  split
  · next h => simp [h]
  · have h := read_listing (fun k => f.byte (p + k)) (e - p) j
    rw [if_pos hj] at h
    rw [FrameBuffer.byte]
    simp only [h]

theorem isDef_shift (f : FrameBuffer) (p e draw j : Nat) (hp : p ≠ 0) (he : e ≤ 63) :
    (f.shift p e draw).isDef j = (decide (p + j < e) && f.isDef (p + j)) := by
  simp only [FrameBuffer.shift, if_neg hp, FrameBuffer.isDef]
  exact getLsbD_shiftDef _ _ _ _ he

@[simp] theorem shift_zero (f : FrameBuffer) (e draw : Nat) : f.shift 0 e draw = f := rfl
@[simp] theorem tail_shift (f : FrameBuffer) (p e draw : Nat) : (f.shift p e draw).tail = f.tail := by
  unfold FrameBuffer.shift; split <;> rfl
@[simp] theorem tail_discard (f : FrameBuffer) (lo e draw : Nat) : (f.discard lo e draw).tail = f.tail := by
  unfold FrameBuffer.discard; split <;> rfl
theorem isDef_discard (f : FrameBuffer) (lo e draw j : Nat) (h : lo < e) : (f.discard lo e draw).isDef j = false := by
  simp [FrameBuffer.discard, h, FrameBuffer.isDef]
theorem discard_empty (f : FrameBuffer) (lo e draw : Nat) (h : e ≤ lo) : f.discard lo e draw = f := by
  simp [FrameBuffer.discard, Nat.not_lt.2 h]

/-- The cells a SHIFT leaves are in the one form. -/
theorem shift_wf {f : FrameBuffer} (hf : f.cells.wf) (p : Nat) {e : Nat} (he : e ≤ 63) (draw : Nat) :
    (f.shift p e draw).cells.wf := by
  unfold FrameBuffer.shift
  split
  · exact hf
  · refine ⟨List.pairwise_map.2 (List.pairwise_lt_range.imp fun h => h), fun c hc => ?_⟩
    obtain ⟨j, hj, rfl⟩ := List.mem_map.1 hc
    have := List.mem_range.1 hj
    show j < 63
    omega

theorem discard_wf {f : FrameBuffer} (hf : f.cells.wf) (lo e draw : Nat) : (f.discard lo e draw).cells.wf := by
  unfold FrameBuffer.discard
  split
  · exact ⟨List.Pairwise.nil, by simp⟩
  · exact hf

/-! ### The header search and RESYNC -/

theorem magic_getD (k : Nat) (hk : k < 3) : magic[k]? = some (magic.getD k 0#8) := by
  rcases k with _ | _ | _ | k
  · rfl
  · rfl
  · rfl
  · omega

/-- `headerAt` is the header match of 30_encoding.md R72. -/
theorem headerAt_iff (f : FrameBuffer) (p e : Nat) :
    f.headerAt p e = true ↔ ∀ k, k < 3 → p + k < e → f.byte (p + k) = magic.getD k 0#8 := by
  have hlen : (magic.take (min 3 (e - p))).length = min 3 (e - p) := by
    simp [magic]
  simp only [FrameBuffer.headerAt, beq_iff_eq]
  constructor
  · intro h k hk hpe
    have h1 := congrArg (fun l => l[k]?) h
    have h2 : k < min 3 (e - p) := by omega
    simp only [FrameBuffer.slice, List.getElem?_map, List.getElem?_take, if_pos h2, magic_getD k hk] at h1
    rw [List.getElem?_range (by omega)] at h1
    simpa using h1
  · intro h
    apply List.ext_getElem?
    intro k
    by_cases hk : k < min 3 (e - p)
    · simp only [FrameBuffer.slice, List.getElem?_map, List.getElem?_take, if_pos hk, magic_getD k (by omega)]
      rw [List.getElem?_range (by omega)]
      simp [h k (by omega) (by omega)]
    · rw [List.getElem?_eq_none (by rw [length_slice]; omega), List.getElem?_eq_none (by omega)]

/-- The search answers the earliest match. -/
theorem findHeader_some {f : FrameBuffer} {lo e p : Nat} : f.findHeader lo e = some p ↔
    lo ≤ p ∧ p < e ∧ f.headerAt p e = true ∧ ∀ q, lo ≤ q → q < p → f.headerAt q e = false := by
  simp only [FrameBuffer.findHeader, List.find?_range'_eq_some, List.mem_range'_1, Bool.not_eq_true']
  constructor
  · rintro ⟨h1, h2, h3⟩
    exact ⟨h2.1, by omega, h1, h3⟩
  · rintro ⟨h1, h2, h3, h4⟩
    exact ⟨h3, ⟨h1, by omega⟩, h4⟩

/-- The search answers nothing exactly when no position matches. -/
theorem findHeader_none {f : FrameBuffer} {lo e : Nat} : f.findHeader lo e = none ↔
    ∀ q, lo ≤ q → q < e → f.headerAt q e = false := by
  simp only [FrameBuffer.findHeader, List.find?_eq_none, List.mem_range'_1, Bool.not_eq_true]
  exact ⟨fun h q h1 h2 => h q ⟨h1, by omega⟩, fun h q hq => h q hq.1 (by omega)⟩

/-- Everything a RESYNC can do (40_frame_buffer.md R110). -/
theorem resync_cases (f : FrameBuffer) (lo e draw : Nat) :
    (∃ p, f.findHeader lo e = some p ∧ f.resync lo e draw = (f.shift p e draw, e - p)) ∨
    (f.findHeader lo e = none ∧ f.resync lo e draw = (f.discard lo e draw, 0)) := by
  unfold FrameBuffer.resync
  cases h : f.findHeader lo e with
  | none => exact .inr ⟨rfl, rfl⟩
  | some p => exact .inl ⟨p, rfl, rfl⟩

theorem resync_le (f : FrameBuffer) (lo e draw : Nat) : (f.resync lo e draw).2 ≤ e - lo := by
  rcases resync_cases f lo e draw with ⟨p, hp, hr⟩ | ⟨-, hr⟩
  · have := (findHeader_some.1 hp).1
    rw [hr]
    show e - p ≤ e - lo
    omega
  · simp [hr]

@[simp] theorem tail_resync (f : FrameBuffer) (lo e draw : Nat) : (f.resync lo e draw).1.tail = f.tail := by
  rcases resync_cases f lo e draw with ⟨p, -, hr⟩ | ⟨-, hr⟩ <;> simp [hr]

/-- Everything VERIFY can do: step 1 alone, or step 1 to a full buffer whose checksums fail, then the rescan
(40_frame_buffer.md R115). -/
theorem verify_cases (f : FrameBuffer) (n draw : Nat) :
    ((f.assemble n draw).2 = 63 ∧ (f.assemble n draw).1.frameOk = false ∧
      f.verify n draw = (((f.assemble n draw).1.resync 3 63 draw).1.setTail ((f.assemble n draw).1.resync 3 63 draw).2, false)) ∨
    (((f.assemble n draw).2 ≠ 63 ∨ (f.assemble n draw).1.frameOk = true) ∧
      f.verify n draw = ((f.assemble n draw).1.setTail (f.assemble n draw).2, (f.assemble n draw).2 == 63)) := by
  by_cases h : (f.assemble n draw).2 = 63 ∧ (f.assemble n draw).1.frameOk = false
  · refine .inl ⟨h.1, h.2, ?_⟩
    have h60 := resync_le (f.assemble n draw).1 3 63 draw
    simp only [FrameBuffer.verify, FrameBuffer.recheck, if_pos h]
    congr 1
    simp only [beq_eq_false_iff_ne]
    omega
  · refine .inr ⟨?_, ?_⟩
    · rw [not_and_or] at h
      simpa using h
    · simp only [FrameBuffer.verify, FrameBuffer.recheck, if_neg h]

/-! ### Every operation on a buffer's bytes keeps the one form -/

/-- A buffer as reset leaves it. -/
theorem blank_wf (stamp : Nat) : (FrameBuffer.blank stamp).cells.wf := ⟨List.Pairwise.nil, by simp [FrameBuffer.blank]⟩

/-- The memory of the reset state. -/
theorem reset_wf : State.reset.bufA.cells.wf ∧ State.reset.bufB.cells.wf := ⟨blank_wf 0, blank_wf 1⟩

/-- The memory RESET leaves. -/
theorem restart_wf (s : State) : s.restart.bufA.cells.wf ∧ s.restart.bufB.cells.wf := ⟨blank_wf _, blank_wf _⟩

theorem frameWrite_wf {f : FrameBuffer} (hf : f.cells.wf) {i : Nat} (hi : i < 63) (v : Byte) :
    (f.write i v).cells.wf := write_wf hf hi v

theorem resync_wf {f : FrameBuffer} (hf : f.cells.wf) (lo : Nat) {e : Nat} (he : e ≤ 63) (draw : Nat) :
    (f.resync lo e draw).1.cells.wf := by
  rcases resync_cases f lo e draw with ⟨p, -, hr⟩ | ⟨-, hr⟩
  · rw [hr]; exact shift_wf hf p he draw
  · rw [hr]; exact discard_wf hf lo e draw

theorem assemble_wf {f : FrameBuffer} (hf : f.cells.wf) {n : Nat} (hn : n ≤ f.windowLen) (draw : Nat) :
    (f.assemble n draw).1.cells.wf := by
  have ht := f.tail.isLt
  have hn' : n ≤ 63 - f.tail.toNat := hn
  unfold FrameBuffer.assemble
  split
  · exact resync_wf hf 0 (by omega) draw
  · exact hf

theorem verify_wf {f : FrameBuffer} (hf : f.cells.wf) {n : Nat} (hn : n ≤ f.windowLen) (draw : Nat) :
    (f.verify n draw).1.cells.wf := by
  have ha := assemble_wf hf hn draw
  rcases verify_cases f n draw with ⟨-, -, hv⟩ | ⟨-, hv⟩
  · rw [hv]; exact resync_wf ha 3 (Nat.le_refl 63) draw
  · rw [hv]; exact ha

theorem swap_wf {s : State} (hA : s.bufA.cells.wf) (hB : s.bufB.cells.wf) :
    s.swap.bufA.cells.wf ∧ s.swap.bufB.cells.wf := by
  rw [State.swap_bufA, State.swap_bufB]
  cases s.which
  · exact ⟨blank_wf _, hB⟩
  · exact ⟨hA, blank_wf _⟩

/-- A VERIFY that answers true has moved, discarded and drawn nothing, so the drawing it was given is unused. -/
theorem verify_true {f : FrameBuffer} {n draw : Nat} (hn : n ≤ f.windowLen) (h : (f.verify n draw).2 = true) :
    (f.verify n draw).1 = f.setTail 63 := by
  have ht := f.tail.isLt
  have hn' : n ≤ 63 - f.tail.toNat := hn
  rcases verify_cases f n draw with ⟨-, -, hv⟩ | ⟨-, hv⟩
  · simp [hv] at h
  · have h63 : (f.assemble n draw).2 = 63 := by simpa [hv] using h
    have hf : (f.assemble n draw).1 = f := by
      unfold FrameBuffer.assemble at h63 ⊢
      split at h63
      · rcases resync_cases f 0 (f.tail.toNat + n) draw with ⟨p, -, hr⟩ | ⟨-, hr⟩
        · rw [hr] at h63
          have hp : f.tail.toNat + n - p = 63 := h63
          obtain rfl : p = 0 := by omega
          simp [*]
        · rw [hr] at h63
          exact absurd h63 (by decide : (0 : Nat) ≠ 63)
      · simp [*]
    rw [hv]
    show (f.assemble n draw).1.setTail (f.assemble n draw).2 = _
    rw [hf, h63]

end Sys2Proof.Machine
end

