-- ==== Sys2Proof/Laws/Decoder.lean ====
section
/-! SUPPORT. Everything a NOTIFY, a WRBUF and a step can do, said once. -/

namespace Sys2Proof.Machine

/-- The state of a NOTIFY in which VERIFY has answered and nothing else has happened. -/
def State.verified (s : State) (n : BitVec 6) : State :=
  (s.noteUndef n.toNat).setFill (s.fill.verify n.toNat s.draws).1

/-- Everything NOTIFY can do (41_decoder.md R140): COUNT_RANGE, an unverified or gated Nothing, an emission. -/
theorem exec_notify_cases (n : BitVec 6) (s : State) :
    (s.fill.windowLen < n.toNat ∧ exec (.notify n) s = .next (s.raise (.countRange n))) ∨
    (n.toNat ≤ s.fill.windowLen ∧ (s.fill.verify n.toNat s.draws).2 = false ∧
      exec (.notify n) s = .next (s.verified n).solveNothing) ∨
    (n.toNat ≤ s.fill.windowLen ∧ (s.fill.verify n.toNat s.draws).2 = true ∧
      (s.verified n).swap.latch.gateOpen = false ∧
      exec (.notify n) s = .next (s.verified n).swap.latch.solveNothing) ∨
    (n.toNat ≤ s.fill.windowLen ∧ (s.fill.verify n.toNat s.draws).2 = true ∧
      (s.verified n).swap.latch.gateOpen = true ∧
      exec (.notify n) s = .next (s.verified n).swap.latch.emit.solve) := by
  by_cases hw : s.fill.windowLen < n.toNat
  · exact .inl ⟨hw, by simp [exec, execNotify, hw]⟩
  · refine .inr ?_
    have he : exec (.notify n) s = .next ((s.noteUndef n.toNat).receive n.toNat) := by simp [exec, execNotify, hw]
    have hr : (s.noteUndef n.toNat).receive n.toNat =
        if (s.fill.verify n.toNat s.draws).2 = true then (s.verified n).promote else (s.verified n).solveNothing := rfl
    rw [he, hr]
    cases hv : (s.fill.verify n.toNat s.draws).2
    · exact .inl ⟨Nat.not_lt.1 hw, rfl, by simp⟩
    · refine .inr ?_
      cases hg : (s.verified n).swap.latch.gateOpen
      · exact .inl ⟨Nat.not_lt.1 hw, rfl, rfl, by simp [State.promote, hg]⟩
      · exact .inr ⟨Nat.not_lt.1 hw, rfl, rfl, by simp [State.promote, hg]⟩

/-- Everything WRBUF can do (40_frame_buffer.md R105). -/
theorem exec_wrbuf_cases (i : BitVec 6) (v : Byte) (s : State) :
    (s.fill.windowLen ≤ i.toNat ∧ exec (.wrbuf i v) s = .next (s.raise (.windowRange i))) ∨
    (i.toNat < s.fill.windowLen ∧ exec (.wrbuf i v) s =
      .next ((s.setFill (s.fill.write (s.fill.tail.toNat + i.toNat) v)).respond fun r => { r with err := false })) := by
  by_cases h : s.fill.windowLen ≤ i.toNat
  · exact .inl ⟨h, by simp [exec, execWrbuf, h]⟩
  · exact .inr ⟨Nat.not_le.1 h, by simp [exec, execWrbuf, h]⟩

/-- Everything a step can do: nothing, an instruction, or ILLEGAL_CMD. -/
theorem step_cases (s : State) :
    (s.port = [] ∧ step s = .next s) ∨
    (∃ c rest i, s.port = c :: rest ∧ decode c.word = .legal i ∧ step s = exec i (s.accept c rest)) ∨
    (∃ c rest why, s.port = c :: rest ∧ decode c.word = .illegal why ∧
      step s = .next ((s.accept c rest).raise .illegalCmd)) := by
  unfold step
  cases hp : s.port with
  | nil => exact .inl ⟨rfl, rfl⟩
  | cons c rest =>
    refine .inr ?_
    cases hd : decode c.word with
    | legal i => exact .inl ⟨c, rest, i, rfl, hd, by simp [hd]⟩
    | illegal why => exact .inr ⟨c, rest, why, rfl, hd, by simp [hd]⟩

/-- The length of a window in numbers. -/
theorem windowLen_eq (f : FrameBuffer) : f.windowLen = 63 - f.tail.toNat := rfl

section Verified

variable (s : State) (n : BitVec 6)

@[simp] theorem verified_which : (s.verified n).which = s.which := rfl
@[simp] theorem verified_pss : (s.verified n).pss = s.pss := rfl
@[simp] theorem verified_lastEmit : (s.verified n).lastEmit = s.lastEmit := rfl
@[simp] theorem verified_lastValid : (s.verified n).lastValid = s.lastValid := rfl
@[simp] theorem verified_errIllegal : (s.verified n).errIllegal = s.errIllegal := rfl
@[simp] theorem verified_errWindow : (s.verified n).errWindow = s.errWindow := rfl
@[simp] theorem verified_errCount : (s.verified n).errCount = s.errCount := rfl
@[simp] theorem verified_ref : (s.verified n).ref = s.ref := rfl
@[simp] theorem verified_port : (s.verified n).port = s.port := rfl
@[simp] theorem verified_arg : (s.verified n).arg = s.arg := rfl
@[simp] theorem verified_draws : (s.verified n).draws = s.draws := rfl
@[simp] theorem verified_record : (s.verified n).record =
    s.record ++ ((s.fill.firstUndef n.toNat).map RecordedFault.hostUndef).toList := rfl
@[simp] theorem verified_fill : (s.verified n).fill = (s.fill.verify n.toNat s.draws).1 := by
  simp [State.verified]
@[simp] theorem verified_cur : (s.verified n).cur = s.cur := by
  simp [State.verified]

end Verified

/-- When the gate is open (41_decoder.md R145, R146). -/
theorem gate_iff (interval : Nat) (lastValid : Bool) (lastEmit now : BitVec 64) (h : 0 < interval) :
    gate interval lastValid lastEmit now = true ↔ lastValid = true → lastEmit.toNat + interval ≤ now.toNat := by
  cases lastValid
  · simp [gate]
  · have h1 : gate interval true lastEmit now = decide (interval ≤ now.toNat - lastEmit.toNat) := rfl
    rw [h1]
    simp only [decide_eq_true_iff, forall_const]
    omega

/-- MIN_INTERVAL_US is in its range (00_scope.md R8). -/
theorem minIntervalUs_range : 25000 ≤ Config.minIntervalUs ∧ Config.minIntervalUs ≤ 40000 := by
  have := Config.minIntervalTune.isLt
  unfold Config.minIntervalUs
  omega

end Sys2Proof.Machine
end

