-- ==== Sys2Proof/Laws/PerInstr.lean ====
section
/-! SUPPORT. Statements made per instruction. TableRow: the encoded word lies in the instruction's row of the
opcode map (30_encoding.md R81), and in no other row. -/

namespace Sys2Proof.Laws

/-- The encoding of `i` has its row's match value under its row's mask, and it is in no other opcode's row:
whatever instruction's row it is in has the same match value (R81). -/
def TableRow.Statement (i : Instr) : Prop :=
  encode i &&& i.rowMask = i.rowMatch ∧ ∀ j : Instr, encode i &&& j.rowMask = j.rowMatch → j.rowMatch = i.rowMatch

/-- The top four bits of the masks and matches decide the row. -/
theorem TableRow.of_top {w : CmdWord} {j : Instr} (h : w &&& j.rowMask = j.rowMatch) :
    opField w = opField j.rowMatch := by
  rw [← h]
  apply BitVec.eq_of_getLsbD_eq
  intro k hk
  have hm : ∀ m : Instr, m.rowMask.getLsbD (28 + k) = true := by
    have hall : ∀ k < 4, (0xFFFFFFFF#32).getLsbD (28 + k) = true ∧ (0xFFFFC000#32).getLsbD (28 + k) = true ∧
        (0xFFFFC0FF#32).getLsbD (28 + k) = true := by decide
    intro m
    obtain ⟨h1, h2, h3⟩ := hall k hk
    cases m <;> first | exact h1 | exact h2 | exact h3
  simp [opField, hk, hm]

/-- The match values are told apart by their opcode. -/
theorem TableRow.match_of_op {i j : Instr} (h : opField i.rowMatch = opField j.rowMatch) :
    i.rowMatch = j.rowMatch := by
  cases i <;> cases j <;> first | rfl | exact absurd h (by simp only [Instr.rowMatch]; decide)

/-- Both halves of the statement from the first. -/
theorem TableRow.of_row {i : Instr} (h : encode i &&& i.rowMask = i.rowMatch) : TableRow.Statement i :=
  ⟨h, fun _ hj => TableRow.match_of_op ((TableRow.of_top hj).symm.trans (TableRow.of_top h))⟩

theorem TableRow.reset : TableRow.Statement .reset := of_row (by decide)

theorem TableRow.getbuf : TableRow.Statement .getbuf := of_row (by decide)

theorem TableRow.wrbuf (i : BitVec 6) (v : Byte) : TableRow.Statement (.wrbuf i v) := of_row <| by
  apply BitVec.eq_of_getLsbD_eq
  intro k hk
  simp only [encode, commandWord, Instr.rowMask, Instr.rowMatch, BitVec.getLsbD_and, BitVec.getLsbD_append]
  by_cases h : k < 14
  · have hm : (0xFFFFC000#32).getLsbD k = false := by
      have : ∀ k < 14, (0xFFFFC000#32).getLsbD k = false := by decide
      exact this k h
    have hr : (0x30000000#32).getLsbD k = false := by
      have : ∀ k < 14, (0x30000000#32).getLsbD k = false := by decide
      exact this k h
    simp [hm, hr]
  · have h1 : ¬ k < 8 := by omega
    have h2 : ¬ k - 8 < 6 := by omega
    have hall : ∀ k < 32, ¬ k < 14 →
        ((if k - 8 - 6 < 14 then (0#14).getLsbD (k - 8 - 6) else (0x3#4).getLsbD (k - 8 - 6 - 14)) &&
          (0xFFFFC000#32).getLsbD k) = (0x30000000#32).getLsbD k := by decide
    have := hall k hk h
    simpa [h1, h2] using this

theorem TableRow.notify (n : BitVec 6) : TableRow.Statement (.notify n) := of_row <| by
  revert n
  decide

theorem TableRow.transform : TableRow.Statement .transform := of_row (by decide)

theorem TableRow.fromenu : TableRow.Statement .fromenu := of_row (by decide)

theorem TableRow.rdstat : TableRow.Statement .rdstat := of_row (by decide)

end Sys2Proof.Laws
end

