-- ==== Sys2Proof/Tests/Slice0.lean ====
section
/-! SUPPORT. Tests against the vectors of 95_test_vectors.md and small hand calculations, and, for each
obligation that has hypotheses, a witness that meets them all. -/

namespace Sys2Proof.Tests

open Sys2Proof.Machine

-- Elaborated one after another: side by side, the kernel evaluations below each hold a thread and its stack.
set_option Elab.async false

/-! ### Helpers -/

/-- The next state of an outcome. -/
def next? : Host.Outcome State Fault Refusal → Option State
  | .next t => some t
  | _ => none

/-- A buffer whose first bytes are these, written and defined, with TAIL `tail`. -/
def listed (bytes : List Byte) (tail : BitVec 6) : FrameBuffer where
  cells := (List.range bytes.length).zip bytes
  stamp := 0
  defined := BitVec.ofNat 63 (2 ^ bytes.length - 1)
  tail := tail

/-- The operands of the tests: NOW 1000000, P = (300010000, 1200010000, 5000000), O = REF of section 0. -/
def arg0 : Arg where
  now := 1000000#64
  p := ⟨300010000#32, 1200010000#32, 5000000#32⟩
  o := ⟨300000000#32, 1200000000#32, 0#32⟩
  e := ⟨0#64, 0#64, 0#64⟩

/-- The reset state with the filling buffer, buffer B, given and the operands driven. -/
def filling (f : FrameBuffer) : State := { State.reset with bufB := f, arg := arg0 }

/-- The reset state with one command on the port. -/
def commanded (s : State) (w : CmdWord) : State := { s with port := [⟨w, arg0⟩] }

/-- Frame F1 (95_test_vectors.md section 1). -/
def f1 : List Byte :=
  [0xBD#8, 0xDB#8, 0x0B#8, 0x00#8, 0x00#8, 0x00#8, 0x00#8, 0x00#8, 0x10#8, 0x01#8, 0x00#8, 0x02#8, 0x00#8] ++
  [0x03#8, 0x00#8, 0x04#8, 0x00#8, 0x05#8, 0x00#8, 0x06#8, 0x00#8, 0x00#8, 0xA3#8, 0xE1#8, 0x11#8, 0x00#8] ++
  [0x8C#8, 0x86#8, 0x47#8, 0x00#8, 0x00#8, 0x00#8, 0x00#8, 0x07#8, 0x00#8, 0x08#8, 0x00#8, 0x09#8, 0x00#8] ++
  [0x0F#8, 0x00#8, 0x00#8, 0x00#8, 0x00#8, 0x00#8, 0x00#8, 0x01#8, 0x00#8, 0x07#8, 0x00#8, 0x02#8, 0x00#8] ++
  [0x45#8, 0x23#8, 0x01#8, 0x00#8, 0x20#8, 0x2E#8, 0x00#8, 0x11#8, 0x22#8, 0x33#8, 0x00#8]

/-- Frame F2 (95_test_vectors.md section 1). -/
def f2 : List Byte :=
  [0xBD#8, 0xDB#8, 0x0B#8, 0x00#8, 0x00#8, 0x00#8, 0x00#8, 0x00#8, 0x10#8, 0x01#8, 0x00#8, 0x02#8, 0x00#8] ++
  [0x03#8, 0x00#8, 0x04#8, 0x00#8, 0x05#8, 0x00#8, 0x06#8, 0x00#8, 0x00#8, 0xA3#8, 0xE1#8, 0x11#8, 0x00#8] ++
  [0x8C#8, 0x86#8, 0x47#8, 0x00#8, 0x00#8, 0x00#8, 0x00#8, 0x07#8, 0x00#8, 0x08#8, 0x00#8, 0x09#8, 0x00#8] ++
  [0x01#8, 0x00#8, 0x00#8, 0x00#8, 0x00#8, 0x00#8, 0x00#8, 0x01#8, 0x00#8, 0x07#8, 0x00#8, 0x02#8, 0x00#8] ++
  [0x45#8, 0x23#8, 0x01#8, 0x00#8, 0x20#8, 0x20#8, 0x00#8, 0x11#8, 0x22#8, 0x33#8, 0x00#8]

/-- Frame F1x, which fails region 1 (95_test_vectors.md section 1). -/
def f1x : List Byte :=
  [0xBD#8, 0xDB#8, 0x0B#8, 0x00#8, 0x00#8, 0x00#8, 0x00#8, 0x00#8, 0x10#8, 0x01#8, 0x01#8, 0x02#8, 0x00#8] ++
  [0x03#8, 0x00#8, 0x04#8, 0x00#8, 0x05#8, 0x00#8, 0x06#8, 0x00#8, 0x00#8, 0xA3#8, 0xE1#8, 0x11#8, 0x00#8] ++
  [0x8C#8, 0x86#8, 0x47#8, 0x00#8, 0x00#8, 0x00#8, 0x00#8, 0x07#8, 0x00#8, 0x08#8, 0x00#8, 0x09#8, 0x00#8] ++
  [0x0F#8, 0x00#8, 0x00#8, 0x00#8, 0x00#8, 0x00#8, 0x00#8, 0x01#8, 0x00#8, 0x07#8, 0x00#8, 0x02#8, 0x00#8] ++
  [0x45#8, 0x23#8, 0x01#8, 0x00#8, 0x20#8, 0x2E#8, 0x00#8, 0x11#8, 0x22#8, 0x33#8, 0x00#8]

/-- Frame F3 (95_test_vectors.md section 1). -/
def f3 : List Byte :=
  [0xBD#8, 0xDB#8, 0x0B#8, 0x00#8, 0x00#8, 0x00#8, 0x00#8, 0x00#8, 0xE0#8, 0x00#8, 0x00#8, 0x00#8, 0x00#8] ++
  [0x00#8, 0x00#8, 0x00#8, 0x00#8, 0x00#8, 0x00#8, 0x00#8, 0x00#8, 0x10#8, 0xCA#8, 0xE1#8, 0x11#8, 0x10#8] ++
  [0xB3#8, 0x86#8, 0x47#8, 0x40#8, 0x4B#8, 0x4C#8, 0x00#8, 0x00#8, 0x00#8, 0x00#8, 0x00#8, 0x00#8, 0x00#8] ++
  [0x0F#8, 0x00#8, 0x00#8, 0x00#8, 0x00#8, 0x00#8, 0x00#8, 0x09#8, 0x00#8, 0x09#8, 0x00#8, 0x09#8, 0x00#8] ++
  [0x00#8, 0x00#8, 0x00#8, 0x00#8, 0x00#8, 0x84#8, 0x00#8, 0x00#8, 0x00#8, 0x00#8, 0x00#8]

/-- G2, a false header and a trailing partial one (95_test_vectors.md section 1). -/
def g2 : List Byte :=
  [0xBD#8, 0xDB#8, 0x0B#8, 0x00#8, 0x00#8, 0x00#8, 0x00#8, 0x00#8, 0x00#8, 0x00#8, 0x00#8, 0x00#8, 0x00#8] ++
  [0x00#8, 0x00#8, 0x00#8, 0x00#8, 0x00#8, 0x00#8, 0x00#8, 0x00#8, 0x00#8, 0x00#8, 0x00#8, 0x00#8, 0x00#8] ++
  [0x00#8, 0x00#8, 0x00#8, 0x00#8, 0x00#8, 0x00#8, 0x00#8, 0x00#8, 0x00#8, 0x00#8, 0x00#8, 0x00#8, 0x00#8] ++
  [0x00#8, 0x00#8, 0x00#8, 0x00#8, 0x00#8, 0x00#8, 0x00#8, 0x00#8, 0x00#8, 0x00#8, 0x00#8, 0x00#8, 0x00#8] ++
  [0x00#8, 0x00#8, 0x00#8, 0x00#8, 0x00#8, 0x00#8, 0x00#8, 0x00#8, 0x00#8, 0xBD#8, 0xDB#8]

/-- The false header G followed by the first 40 bytes of F1 (section 1, V-VF-3). -/
def gF1 : List Byte := [0xBD#8, 0xDB#8, 0x0B#8] ++ List.replicate 20 0#8 ++ f1.take 40

/-- TAIL 10: the header and seven zeros (V-VF-7, V-WR-4, V-ERR-2). -/
def ten : List Byte := [0xBD#8, 0xDB#8, 0x0B#8] ++ List.replicate 7 0#8

/-! ### Well-formedness and decoding -/

/-- The one check: FROMENU is ill-formed without HAS_FROM_ENU (30_encoding.md R82). -/
theorem test_wf_refuses_absent_fromenu : Instr.wfWith false .fromenu = false := by decide

theorem test_wf_accepts_the_others : Instr.wfWith false .rdstat = true ∧ Instr.wfWith false (.notify 63#6) = true ∧
    Instr.wfWith true .fromenu = true := by decide

/-- V-DEC-2, V-DEC-6, V-DEC-14, V-DEC-15 and V-DEC-16, bit by bit: OP, RSV, IDX, DATA. -/
theorem test_decode_no_operands :
    decode 0b0001_00000000000000_000000_00000000#32 = .legal .reset ∧
    decode 0b0010_00000000000000_000000_00000000#32 = .legal .getbuf ∧
    decode 0b0101_00000000000000_000000_00000000#32 = .legal .transform ∧
    decode 0b0110_00000000000000_000000_00000000#32 = .legal .fromenu ∧
    decode 0b0111_00000000000000_000000_00000000#32 = .legal .rdstat := by decide

/-- V-DEC-7, V-DEC-8 and V-DEC-9. -/
theorem test_decode_wrbuf :
    decode 0b0011_00000000000000_000000_10111101#32 = .legal (.wrbuf 0#6 0xBD#8) ∧
    decode 0b0011_00000000000000_111111_00000000#32 = .legal (.wrbuf 63#6 0#8) ∧
    decode 0b0011_00000000000000_111111_11111111#32 = .legal (.wrbuf 63#6 0xFF#8) := by decide

/-- V-DEC-11 and V-DEC-12. -/
theorem test_decode_notify :
    decode 0b0100_00000000000000_000000_00000000#32 = .legal (.notify 0#6) ∧
    decode 0b0100_00000000000000_111111_00000000#32 = .legal (.notify 63#6) := by decide

/-- V-DEC-1, 3, 4, 5, 10, 13, 17, 18 and 19: the illegal words, by their reasons (R82). -/
theorem test_decode_illegal :
    decode 0x00000000#32 = .illegal .reservedOp ∧ decode 0x10000001#32 = .illegal .dataField ∧
    decode 0x10000100#32 = .illegal .idxField ∧ decode 0x10004000#32 = .illegal .reservedField ∧
    decode 0x30004000#32 = .illegal .reservedField ∧ decode 0x40003F01#32 = .illegal .dataField ∧
    decode 0x80000000#32 = .illegal .reservedOp ∧ decode 0xF0000000#32 = .illegal .reservedOp ∧
    decode 0x7FFFFFFF#32 = .illegal .reservedField := by decide

/-- V-DEC-15 without HAS_FROM_ENU. -/
theorem test_decode_absent_fromenu : decodeWith false 0x60000000#32 = .illegal .noFromEnu := by decide

/-- Words of the P1 listing (section 4). -/
theorem test_encode_listing : encode (.wrbuf 57#6 0x2E#8) = 0x3000392E#32 ∧ encode (.notify 63#6) = 0x40003F00#32 := by
  decide

/-- A table word reaches the decoder as it stands. -/
theorem test_decodeTableWord : decodeTableWord 32 0x40003F00 = some (.notify 63#6) ∧
    decodeTableWord 32 0x80000000 = none := by decide

/-- The first and the last three commands of P1 and V-WR-3's word: FEED's expansion (R86). -/
theorem test_feed_words :
    (feed arg0 5#64 [0xBD#8, 0xDB#8]).map Command.word =
      [0x20000000#32, 0x300000BD#32, 0x300001DB#32, 0x40000200#32] := by decide

/-! ### CHECK, FRAME_OK, RESYNC, VERIFY -/

/-- V-CK-1 to V-CK-8. -/
theorem test_check :
    check [] = true ∧ check [0x5A#8] = true ∧ check [0x5A#8, 0x5A#8] = true ∧ check [0x5A#8, 0xA5#8] = false ∧
    check [3#8, 1#8, 2#8] = true ∧ check [3#8, 1#8, 3#8] = false ∧ check (List.replicate 5 0#8) = true ∧
    check [0#8, 0x11#8, 0x22#8, 0x33#8, 0#8] = true := by decide

/-- FRAME_OK of section 3.1. -/
theorem test_frame_ok : (listed f1 0#6).frameOk = true ∧ (listed f2 0#6).frameOk = true ∧
    (listed f3 0#6).frameOk = true ∧ (listed f1x 0#6).frameOk = false ∧ (listed g2 0#6).frameOk = false := by
  decide +kernel

/-- V-RS-2, V-RS-3, V-RS-5, V-RS-6, V-RS-8 and V-RS-10: the length kept. -/
theorem test_resync_length :
    ((listed [0#8, 0#8, 0xBD#8, 0xDB#8, 0x0B#8, 5#8] 0#6).resync 0 6 9).2 = 4 ∧
    ((listed [0#8, 0x11#8, 0x22#8] 0#6).resync 0 3 9).2 = 0 ∧
    ((listed [0#8, 0xBD#8, 0xDB#8] 0#6).resync 0 3 9).2 = 2 ∧
    ((listed [0#8, 0xBD#8, 0x0B#8] 0#6).resync 0 3 9).2 = 0 ∧
    ((listed [0xBD#8, 0xDB#8, 0xBD#8, 0xDB#8, 0x0B#8] 0#6).resync 0 5 9).2 = 3 ∧
    ((listed [0xDB#8] 0#6).resync 0 1 9).2 = 0 := by decide +kernel

/-- V-RS-2 and V-RS-12: the bytes kept. -/
theorem test_resync_bytes :
    ((listed [0#8, 0#8, 0xBD#8, 0xDB#8, 0x0B#8, 5#8] 0#6).resync 0 6 9).1.slice 0 4 = [0xBD#8, 0xDB#8, 0x0B#8, 5#8] ∧
    ((listed g2 0#6).resync 3 63 9).1.slice 0 2 = [0xBD#8, 0xDB#8] := by decide +kernel

/-- V-VF-1, V-VF-2, V-VF-3, V-VF-7 and V-VF-8: the answer and TAIL. -/
theorem test_verify :
    (((listed f1 0#6).verify 63 9).2, ((listed f1 0#6).verify 63 9).1.tail) = (true, 63#6) ∧
    (((listed f1x 0#6).verify 63 9).2, ((listed f1x 0#6).verify 63 9).1.tail) = (false, 0#6) ∧
    (((listed gF1 0#6).verify 63 9).2, ((listed gF1 0#6).verify 63 9).1.tail) = (false, 40#6) ∧
    (((listed (ten ++ List.replicate 5 0#8) 10#6).verify 5 9).2,
      ((listed (ten ++ List.replicate 5 0#8) 10#6).verify 5 9).1.tail) = (false, 15#6) ∧
    (((listed g2 0#6).verify 63 9).2, ((listed g2 0#6).verify 63 9).1.tail) = (false, 2#6) := by decide +kernel

/-! ### Commands -/

/-- V-GB-1 and V-GB-2. -/
theorem test_getbuf : (next? (exec .getbuf State.reset)).map (fun t => (t.res.err, t.res.wbase, t.res.wlen)) =
      some (false, 0#6, 63#6) ∧
    (next? (exec .getbuf (filling (listed ten 10#6)))).map (fun t => (t.res.wbase, t.res.wlen)) =
      some (10#6, 53#6) := by decide +kernel

/-- V-WR-2 and V-WR-4: the last legal offsets. -/
theorem test_wrbuf : (next? (exec (.wrbuf 62#6 0xFF#8) State.reset)).map
      (fun t => (t.res.err, t.bufB.byte 62, t.bufB.isDef 62, t.bufB.isDef 61)) = some (false, 0xFF#8, true, false) ∧
    (next? (exec (.wrbuf 52#6 0xAB#8) (filling (listed ten 10#6)))).map (fun t => (t.res.err, t.bufB.byte 62)) =
      some (false, 0xAB#8) := by decide +kernel

/-- V-WR-3 and V-WR-5: beyond the window. -/
theorem test_wrbuf_beyond : (next? (exec (.wrbuf 63#6 0#8) State.reset)).map
      (fun t => (t.res.err, t.errWindow, t.record)) = some (true, true, [.error (.windowRange 63#6)]) ∧
    (next? (exec (.wrbuf 53#6 0#8) (filling (listed ten 10#6)))).map (fun t => (t.res.err, t.errWindow, t.bufB)) =
      some (true, true, listed ten 10#6) := by decide +kernel

/-- V-NOT-1: the Solution but its open parts, and the state after it (program P1's end state). -/
theorem test_notify_f1 : (next? (exec (.notify 63#6) (filling (listed f1 0#6)))).map
      (fun t => (t.res.err, t.res.kind, t.res.st, t.res.enu.up, t.which, t.bufB.tail, t.bufA.tail)) =
        some (false, 2#2, ⟨1#16, 7#16, 2#16⟩, xfUp ⟨300000000#32, 1200000000#32, 0#32⟩ Config.refDefault,
          .one, 63#6, 0#6) ∧
    (next? (exec (.notify 63#6) (filling (listed f1 0#6)))).map (fun t => (t.pss, t.lastEmit, t.lastValid, t.record)) =
        some (⟨1#16, 7#16, 2#16⟩, 1000000#64, true, []) := ⟨rfl, by decide +kernel⟩

/-- V-NOT-2 and V-NOT-5's latch: F2 gives Uninitialized, F3 is untagged and keeps PSS. -/
theorem test_notify_f2_f3 : (next? (exec (.notify 63#6) (filling (listed f2 0#6)))).map
      (fun t => (t.res.err, t.res.kind, t.res.st)) = some (false, 1#2, ⟨1#16, 7#16, 2#16⟩) ∧
    (next? (exec (.notify 63#6) (filling (listed f3 0#6)))).map (fun t => (t.res.kind, t.res.st)) =
      some (2#2, ⟨0#16, 0#16, 0#16⟩) := by decide +kernel

/-- SWAP empties the buffer it recycles and leaves no byte of it a value of its own (93 row 2). -/
theorem test_swap_recycles : (next? (exec (.notify 63#6) { filling (listed f1 0#6) with bufA := listed f2 63#6 })).map
      (fun t => (t.bufA.cells, t.bufA.defined, t.bufA.tail, t.which)) = some ([], 0#63, 0#6, .one) := by decide +kernel

/-- V-GATE-4: NOW went back, so a second frame within a run of the gate gives Nothing and is swapped in. -/
theorem test_gate_saturates (m : Nat) (h : 0 < m) : gate m true 1000000#64 900000#64 = false := by
  have : elapsed 900000#64 1000000#64 = 0 := by decide
  simp [gate, this, Nat.pos_iff_ne_zero.1 h]

/-- V-GATE-1, V-GATE-3 and V-GATE-6, with MIN_INTERVAL_US 30000. -/
theorem test_gate : gate 30000 true 1000000#64 1029999#64 = false ∧ gate 30000 true 1000000#64 1030000#64 = true ∧
    gate 30000 false 0#64 0#64 = true := by decide

/-- V-CL-3, V-CL-5, V-CL-6 and V-CL-8. -/
theorem test_popcount8 : popcount8 0x07#8 = 3 ∧ popcount8 0x0F#8 = 4 ∧ popcount8 0xF0#8 = 4 ∧ popcount8 0xFF#8 = 8 := by
  decide

/-- V-CT-1, V-CT-3, V-CT-4 and V-CT-6: the STATUS word. -/
theorem test_rdstat : (next? (exec .rdstat State.reset)).map (fun t => (t.res.err, t.res.word)) = some (false, 0#32) ∧
    (next? (exec .rdstat { filling (listed ten 10#6) with errWindow := true })).map (·.res.word) = some 0x00000A02#32 ∧
    (next? (exec .rdstat { filling (listed ten 10#6) with errWindow := true, errCount := true })).map (·.res.word) =
      some 0x00000A06#32 ∧
    (next? (exec .rdstat { State.reset with which := .one, lastValid := true })).map (·.res.word) =
      some 0x00030000#32 := by decide +kernel

/-- V-CT-5: RESET clears the flags and not the fault record. -/
theorem test_reset : (next? (exec .reset { filling (listed ten 10#6) with
      errWindow := true, which := .one, lastEmit := 5#64, record := [.hostUndef 3] })).map
      (fun t => (t.errWindow, t.which, t.bufB.tail, t.lastEmit, t.record)) =
    some (false, .zero, 0#6, 0#64, [.hostUndef 3]) := by decide +kernel

/-- V-XF-2 and V-XF-4: `up` of TRANSFORM, the binary64 words of 0.5 and −2.0 (XF-UP). -/
theorem test_transform_up : (next? (exec .transform (filling (listed [] 0#6)))).map
      (fun t => (t.res.err, t.res.enu.up)) = some (false, 0x3FE0000000000000#64) ∧
    xfUp ⟨0#32, 0#32, BitVec.ofInt 32 (-20000000)⟩ ⟨0#32, 0#32, 0#32⟩ = 0xC000000000000000#64 := by decide +kernel

/-- FROMENU drives POS and ERR only as INV gives it (R192). -/
theorem test_fromenu : (next? (exec .fromenu (filling (listed [] 0#6)))).map (fun t => (t.res.err, t.pss, t.res.pos)) =
    some (false, ⟨0#16, 0#16, 0#16⟩, Config.inv arg0.e arg0.o) := rfl

/-- V-ERR-3: COUNT_RANGE. -/
theorem test_notify_beyond : (next? (exec (.notify 54#6) (filling (listed ten 10#6)))).map
      (fun t => (t.res.err, t.errCount, t.bufB.tail)) = some (true, true, 10#6) := by decide +kernel

/-- V-ERR-4 and V-ERR-8: HOST_UNDEF, and none with count 0. -/
theorem test_host_undef : (next? (exec (.notify 5#6) (filling (listed ten 10#6)))).map
      (fun t => (t.res.err, t.record, t.errCount)) = some (false, [.hostUndef 10], false) ∧
    (next? (exec (.notify 0#6) State.reset)).map (fun t => (t.res.err, t.res.kind, t.record)) =
      some (false, 0#2, []) := by decide +kernel

/-- V-ERR-5 and V-ERR-6: illegal words. -/
theorem test_illegal : (next? (step (commanded State.reset 0x80000000#32))).map
      (fun t => (t.res.err, t.errIllegal, t.record)) = some (true, true, [.error .illegalCmd]) ∧
    (next? (step (commanded State.reset 0x10000001#32))).map (fun t => (t.res.err, t.errIllegal)) =
      some (true, true) := by decide +kernel

/-- A word placed on the port runs in the next step. -/
theorem test_withFetchWord : (next? (step (State.reset.withFetchWord 32 0x30003EFF))).map
      (fun t => (t.res.err, t.bufB.byte 62, t.port)) = some (false, 0xFF#8, []) := by decide +kernel

/-! ### Arithmetic -/

/-- V-HD-1, V-HD-2 and V-HD-5 to V-HD-9, HEADING_SIGN +1; the words of the decimal values. -/
theorem test_heading_plus :
    heading .plus (0) = 0x3FF921FB54442D18#64 ∧
    heading .plus (4096) = 0x3FE921FB54442D18#64 ∧
    heading .plus (1) = 0x3FF9213244698AF7#64 ∧
    heading .plus (32767) = 0xC012D94A3B3C794A#64 ∧
    heading .plus (-32768) = 0x401F6A7A2955385E#64 ∧
    heading .plus (-8192) = 0x400921FB54442D18#64 := by decide +kernel

/-- The same with HEADING_SIGN −1. -/
theorem test_heading_minus :
    heading .minus (0) = 0xBFF921FB54442D18#64 ∧
    heading .minus (4096) = 0xC002D97C7F3321D2#64 ∧
    heading .minus (1) = 0xBFF922C4641ECF39#64 ∧
    heading .minus (32767) = 0xC01F6A47E55E8FD6#64 ∧
    heading .minus (-32768) = 0x4012D97C7F3321D2#64 ∧
    heading .minus (-8192) = 0x0000000000000000#64 := by decide +kernel

/-- F and B of R180, D2R and toRad(300000000) of section 3.6. -/
theorem test_constants : wgs84F = 0x3F6B775A84F3E128#64 ∧ wgs84B = 0x41583FC4141C97D0#64 ∧ d2r = 0x3F91DF46A2529D39#64 ∧
    toRad 300000000 = 0x3FE0C152382D7365#64 ∧ toRad 1 = 0x3E1DFC0A0ACF97E2#64 := by decide +kernel

/-- A library that answers the values the V-XF-2 vector takes: COS and SIN of toRad(300000000), TAN of
toRad(10000), HYP 6372797.555959401. -/
def vectorLib : MathLib where
  cos := fun _ => 0x3FEBB67AE8584CAB#64
  sin := fun _ => 0x3FDFFFFFFFFFFFFF#64
  tan := fun _ => 0x3EF24D1521212FA7#64
  atan := fun _ => 0x3EF24D1521193474#64
  hyp := fun _ _ => 0x41584F6F6394D6BD#64

/-- V-XF-2: REF_XF over that library. -/
theorem test_refXf : refXf vectorLib arg0.p arg0.o = ⟨0x405814C98B695DB8#64, 0x405BCE7BB2AF228C#64, 0x3FE0000000000000#64⟩ := by
  decide +kernel

/-- V-XF-2 back: REF_INV over that library gives p. -/
theorem test_refInv : refInv vectorLib ⟨0x405814C98B695DB8#64, 0x405BCE7BB2AF228C#64, 0x3FE0000000000000#64⟩ arg0.o = some arg0.p := by
  decide +kernel

/-- RNI: ties go to even (R191): 2.5, 3.5 and −2.5. -/
theorem test_rni : rni 0x4004000000000000#64 = 2 ∧ rni 0x400C000000000000#64 = 4 ∧ rni 0xC004000000000000#64 = -2 := by decide +kernel

/-! ### Witnesses: for each statement with hypotheses, operands that meet them all -/

/-- F1 written and not yet reported, the gate not armed. -/
def ready1 : State := filling (listed f1 0#6)

/-- F2 likewise. -/
def ready2 : State := filling (listed f2 0#6)

/-- F1 written, after an emission at 1000000. -/
def armed1 : State := { filling (listed f1 0#6) with lastEmit := 1000000#64, lastValid := true }

/-- F1 promoted to the current buffer by an emission at 1000000, with one command on the port. -/
def promoted1 (w : CmdWord) : State :=
  { commanded State.reset w with
    bufA := listed f1 63#6, bufB := listed ten 10#6, lastEmit := 1000000#64, lastValid := true }

theorem witness_StepRunsTheDecodedCommand :
    (commanded State.reset 0x40000000#32).port = ⟨0x40000000#32, arg0⟩ :: [] ∧
    decode (⟨0x40000000#32, arg0⟩ : Command).word = .legal (.notify 0#6) := ⟨rfl, by decide⟩

theorem witness_IdleStepKeepsTheState : State.reset.port = [] := rfl

/-- One word for each clause of 30_encoding.md R82 that can hold here, at the edges of its range. -/
theorem witness_IllegalWordRaisesIllegalCmd :
    (commanded State.reset 0x80000000#32).port = ⟨0x80000000#32, arg0⟩ :: [] ∧
    IsIllegalWord Config.hasFromEnu 0x0#32 ∧ IsIllegalWord Config.hasFromEnu 0x80000000#32 ∧
    IsIllegalWord Config.hasFromEnu 0xF0000000#32 ∧ IsIllegalWord Config.hasFromEnu 0x10004000#32 ∧
    IsIllegalWord Config.hasFromEnu 0x38000000#32 ∧ IsIllegalWord Config.hasFromEnu 0x10000100#32 ∧
    IsIllegalWord Config.hasFromEnu 0x70002000#32 ∧ IsIllegalWord Config.hasFromEnu 0x40003F01#32 ∧
    IsIllegalWord false 0x60000000#32 ∧ ¬ IsIllegalWord Config.hasFromEnu 0x60000000#32 := by
  refine ⟨rfl, ?_, ?_, ?_, ?_, ?_, ?_, ?_, ?_, ?_, ?_⟩ <;> (unfold IsIllegalWord; decide)

theorem witness_DecodeOfEncode : Instr.wfWith true .fromenu = true ∧ Instr.wfWith false (.wrbuf 63#6 0xFF#8) = true := by
  decide

theorem witness_EncodeOfDecode : decodeWith true 0x60000000#32 = .legal .fromenu ∧
    decodeWith false 0x30003FFF#32 = .legal (.wrbuf 63#6 0xFF#8) := by decide

theorem witness_GetbufReportsTheWindow : State.reset.fill.tail = 0#6 ∧
    (filling (listed f1 62#6)).fill.tail.toNat ≤ 62 := by decide

/-- Its clause about a NOTIFY that promotes a frame. -/
theorem witness_GetbufReportsTheWindow_promoted :
    ((next? (exec (.notify 63#6) ready1)).any fun t => t.which != ready1.which) = true := by decide +kernel

/-- The last offset inside the window and the first one beyond it, for an empty buffer and for TAIL 10. -/
theorem witness_WrbufWritesOneWindowByte :
    (62#6).toNat < 63 - State.reset.fill.tail.toNat ∧ 63 - State.reset.fill.tail.toNat ≤ (63#6).toNat ∧
    (52#6).toNat < 63 - (filling (listed ten 10#6)).fill.tail.toNat ∧
    63 - (filling (listed ten 10#6)).fill.tail.toNat ≤ (53#6).toNat := by decide

/-- The last offset inside the window, and the first one beyond it. -/
theorem witness_WrbufIsIdempotent :
    (∃ t u : State, exec (.wrbuf 62#6 0x11#8) State.reset = .next t ∧ exec (.wrbuf 62#6 0x11#8) t = .next u ∧
      (62#6).toNat < 63 - State.reset.fill.tail.toNat) ∧
    (∃ t u : State, exec (.wrbuf 63#6 0x11#8) State.reset = .next t ∧ exec (.wrbuf 63#6 0x11#8) t = .next u ∧
      63 - State.reset.fill.tail.toNat ≤ (63#6).toNat) :=
  ⟨⟨_, _, rfl, rfl, by decide⟩, ⟨_, _, rfl, rfl, by decide⟩⟩

theorem witness_WrbufLaterWriteWins : ∃ t u w : State, exec (.wrbuf 5#6 0x11#8) State.reset = .next t ∧
    exec (.wrbuf 5#6 0x22#8) t = .next u ∧ exec (.wrbuf 5#6 0x22#8) State.reset = .next w :=
  ⟨_, _, _, rfl, rfl, rfl⟩

theorem witness_CheckIsZeroXor : 2 ≤ [0x5A#8, 0x5A#8].length := by decide

theorem witness_FrameOkByItsChecksumBytes : (listed f1 0#6).slice 0 3 = [0xBD#8, 0xDB#8, 0x0B#8] := by decide +kernel

/-- A header found at position 2, one at position 0, none, and an empty range. -/
theorem witness_ResyncTakesTheEarliestMatch :
    (HeaderMatches (listed [0#8, 0#8, 0xBD#8, 0xDB#8, 0x0B#8, 5#8] 0#6) 2 6 ∧
      ∀ q, 0 ≤ q → q < 2 → ¬ HeaderMatches (listed [0#8, 0#8, 0xBD#8, 0xDB#8, 0x0B#8, 5#8] 0#6) q 6) ∧
    HeaderMatches (listed f1 0#6) 0 63 ∧
    (∀ q, 0 ≤ q → q < 1 → ¬ HeaderMatches (listed [0xDB#8] 0#6) q 1) ∧
    (∀ q, 0 ≤ q → q < 0 → ¬ HeaderMatches (listed [] 0#6) q 0) := by
  have h : ∀ f p e, HeaderMatches f p e ↔ f.headerAt p e = true := fun f p e => (headerAt_iff f p e).symm
  simp only [h]
  refine ⟨⟨by decide +kernel, fun q _ hq => ?_⟩, by decide +kernel, fun q _ hq => ?_, fun q _ hq => by omega⟩
  · rcases q with _ | _ | q
    · decide +kernel
    · decide +kernel
    · omega
  · obtain rfl : q = 0 := by omega
    decide +kernel

theorem witness_ResyncLeavesTheHeaderFirst : (3 : Nat) ≤ 63 ∧ 63 ≤ 63 ∧ 2 < ((listed gF1 0#6).resync 3 63 9).2 := by
  decide +kernel

/-- The false header G and 40 bytes of F1 (V-VF-3). -/
theorem witness_RejectedFrameIsRescanned :
    (listed gF1 0#6).assemble 63 9 = (listed gF1 0#6, 63) ∧ (listed gF1 0#6).frameOk = false := by decide +kernel

theorem witness_RescanFromThreeLosesNoHeader : (listed g2 0#6).slice 0 3 = [0xBD#8, 0xDB#8, 0x0B#8] := by
  decide +kernel

theorem witness_ValidFrameVerifiesAtOnce : (listed f1 0#6).tail = 0#6 ∧
    (listed f1 0#6).slice 0 3 = [0xBD#8, 0xDB#8, 0x0B#8] ∧ (listed f1 0#6).frameOk = true := by decide +kernel

/-- Clause 1 at TAIL 3 and at the longest length below 63; clause 2 at TAIL 2 and at TAIL 62. -/
theorem witness_ConfirmedHeaderAcceptsTheLength :
    (3 ≤ (listed ten 3#6).tail.toNat ∧ (listed ten 3#6).tail.toNat + 59 < 63) ∧
    ((listed ten 2#6).tail.toNat ≤ 62 ∧ (listed ten 2#6).HoldsHeader) ∧
    ((listed f1 62#6).tail.toNat ≤ 62 ∧ (listed f1 62#6).HoldsHeader) := by
  unfold FrameBuffer.HoldsHeader
  decide +kernel

theorem witness_NotifyBeyondTheWindowRaises :
    63 - (filling (listed ten 10#6)).fill.tail.toNat < (54#6).toNat := by decide

/-- All bytes defined (F1); and, ten bytes defined, the reported bytes from the sixth on undefined. -/
theorem witness_NotifyRecordsHostUndef :
    ((63#6).toNat ≤ 63 - ready1.fill.tail.toNat ∧
      ∀ j, j < (63#6).toNat → ready1.fill.isDef (ready1.fill.tail.toNat + j) = true) ∧
    ((7#6).toNat ≤ 63 - (filling (listed ten 5#6)).fill.tail.toNat ∧
      (filling (listed ten 5#6)).fill.isDef ((filling (listed ten 5#6)).fill.tail.toNat + 5) = false ∧
      ∀ k, k < 5 → (filling (listed ten 5#6)).fill.isDef ((filling (listed ten 5#6)).fill.tail.toNat + k) = true) := by
  decide +kernel

theorem witness_NotifyUnverifiedGivesNothing :
    (63#6).toNat ≤ 63 - (filling (listed f1x 0#6)).fill.tail.toNat ∧
    ((filling (listed f1x 0#6)).fill.verify 63 (filling (listed f1x 0#6)).draws).2 = false := by decide +kernel

theorem witness_NotifyVerifiedSwapsAndLatches : (63#6).toNat ≤ 63 - ready1.fill.tail.toNat ∧
    (ready1.fill.verify (63#6).toNat ready1.draws).2 = true := by decide +kernel

/-- The last microsecond inside the interval. -/
theorem witness_NotifyGatedGivesNothing :
    let s : State :=
      { armed1 with arg := { arg0 with now := BitVec.ofNat 64 (1000000 + Config.minIntervalUs - 1) } }
    (63#6).toNat ≤ 63 - s.fill.tail.toNat ∧ (s.fill.verify (63#6).toNat s.draws).2 = true ∧
    s.lastValid = true ∧ s.arg.now.toNat < s.lastEmit.toNat + Config.minIntervalUs := by
  refine ⟨by decide +kernel, by decide +kernel, rfl, ?_⟩
  have := minIntervalUs_range
  simp only [BitVec.toNat_ofNat, armed1]
  omega

/-- The gate not armed; and armed, exactly the interval later. -/
theorem witness_NotifyUninitialized :
    let s : State := { ready2 with
      lastEmit := 1000000#64, lastValid := true
      arg := { arg0 with now := BitVec.ofNat 64 (1000000 + Config.minIntervalUs) } }
    (63#6).toNat ≤ 63 - s.fill.tail.toNat ∧ (s.fill.verify (63#6).toNat s.draws).2 = true ∧
    (s.lastValid = true → s.lastEmit.toNat + Config.minIntervalUs ≤ s.arg.now.toNat) ∧
    popcount8 ((s.fill.verify (63#6).toNat s.draws).1.byte 39) < 4 := by
  refine ⟨by decide +kernel, by decide +kernel, fun _ => ?_, by decide +kernel⟩
  have := minIntervalUs_range
  simp only [BitVec.toNat_ofNat]
  omega

theorem witness_NotifyData : (63#6).toNat ≤ 63 - ready1.fill.tail.toNat ∧
    (ready1.fill.verify (63#6).toNat ready1.draws).2 = true ∧
    (ready1.lastValid = true → ready1.lastEmit.toNat + Config.minIntervalUs ≤ ready1.arg.now.toNat) ∧
    4 ≤ popcount8 ((ready1.fill.verify (63#6).toNat ready1.draws).1.byte 39) :=
  ⟨by decide +kernel, by decide +kernel, fun h => absurd h (by decide), by decide +kernel⟩


/-- A NOTIFY in range answers a next state with no error. -/
theorem notify_next {s : State} {n : BitVec 6} (hn : n.toNat ≤ s.fill.windowLen) :
    ∃ t, exec (.notify n) s = .next t ∧ t.res.err = false := by
  rcases exec_notify_cases n s with ⟨h, -⟩ | ⟨-, -, h⟩ | ⟨-, -, -, h⟩ | ⟨-, -, -, h⟩
  · omega
  · exact ⟨_, h, rfl⟩
  · exact ⟨_, h, rfl⟩
  · refine ⟨_, h, ?_⟩
    unfold State.solve
    split <;> rfl

/-- A run of one NOTIFY in range. -/
theorem run_notify {s : State} {c : Command} {n : BitVec 6} (hd : decode c.word = .legal (.notify n))
    (hn : n.toNat ≤ s.fill.windowLen) : ∃ t, run [c] s = some (t, [t.res]) ∧ t.res.err = false := by
  obtain ⟨t, ht, he⟩ := notify_next (s := { s with port := [], arg := c.arg }) hn
  refine ⟨t, ?_, he⟩
  have hs : step { s with port := [c] } = exec (.notify n) { s with port := [], arg := c.arg } := by
    simp [step, hd, State.accept]
  simp [run, hs, ht]

/-- NOTIFY 63 with NOW 1000000. -/
def notify63 : Command := ⟨0x40003F00#32, arg0⟩

/-- NOTIFY 23 with NOW 1000000. -/
def notify23 : Command := ⟨0x40001700#32, arg0⟩

/-- The commands between the two NOTIFYs: a RDSTAT, the FEED of 40 bytes of F1, a NOTIFY beyond the window and the
writes of its other 23. -/
def between : List Command :=
  [⟨0x70000000#32, arg0⟩] ++ feed arg0 1000000#64 (f1.take 40) ++ [notify63] ++ (feed arg0 1000000#64 (f1.drop 40)).dropLast

/-- A command that keeps the gate as an emission left it: no RESET, and a NOTIFY only with an error or Nothing. -/
def quiet (c : Command) (r : Res) : Bool :=
  match decode c.word with
  | .legal .reset => false
  | .legal (.notify _) => r.err || r.kind == 0#2
  | _ => true

theorem quiet_spec {c : Command} {r : Res} (h : quiet c r = true) : decode c.word ≠ .legal .reset ∧
    ∀ n, decode c.word = .legal (.notify n) → r.err = true ∨ r.kind = 0#2 := by
  unfold quiet at h
  refine ⟨fun hd => by simp [hd] at h, fun n hd => by simpa [hd] using h⟩

/-- The first NOTIFY emits at 1000000; the second frame comes in two FEEDs, with a
NOTIFY that gives Nothing and one that raises an error, and its last NOTIFY, at the same NOW, finds a verified frame inside the interval. -/
theorem witness_DebounceSuppressesTheSecondFrame : ∃ (t u v : State) (r1 r2 : Res) (rs : List Res),
    decode notify63.word = .legal (.notify 63#6) ∧ run [notify63] ready1 = some (t, [r1]) ∧
    r1.err = false ∧ r1.kind ≠ 0#2 ∧ run between t = some (u, rs) ∧
    (∀ x ∈ between.zip rs, decode x.1.word ≠ .legal .reset ∧
      ∀ n, decode x.1.word = .legal (.notify n) → x.2.err = true ∨ x.2.kind = 0#2) ∧
    decode notify23.word = .legal (.notify 23#6) ∧
    notify23.arg.now.toNat < notify63.arg.now.toNat + Config.minIntervalUs ∧
    run [notify23] u = some (v, [r2]) ∧ r2.err = false ∧ (u.fill.verify 23 u.draws).2 = true := by
  obtain ⟨t, ht, he⟩ := run_notify (s := ready1) (c := notify63) (n := 63#6) (by decide) (by decide)
  have hk : ((run [notify63] ready1).any fun x => x.1.res.kind != 0#2 &&
      ((run between x.1).any fun y => (between.zip y.2).all (fun z => quiet z.1 z.2) &&
        (decide (23 ≤ y.1.fill.windowLen) && (y.1.fill.verify 23 y.1.draws).2))) = true := by decide +kernel
  rw [ht, Option.any_some, Bool.and_eq_true] at hk
  obtain ⟨⟨u, rs⟩, hu, hw⟩ := (Option.any_eq_true _ _).1 hk.2
  rw [Bool.and_eq_true, Bool.and_eq_true, decide_eq_true_iff] at hw
  obtain ⟨v, hv, hve⟩ := run_notify (s := u) (c := notify23) (n := 23#6) (by decide) hw.2.1
  refine ⟨t, u, v, t.res, v.res, rs, by decide, ht, he, by simpa using hk.1, hu,
    fun x hx => quiet_spec (List.all_eq_true.1 hw.1 x hx), by decide, ?_, hv, hve, hw.2.2⟩
  have := minIntervalUs_range
  show arg0.now.toNat < arg0.now.toNat + Config.minIntervalUs
  omega

theorem witness_KindThreeIsNeverProduced : ∃ t, exec (.notify 63#6) ready1 = .next t ∧ t.res.err = false :=
  notify_next (by decide)

/-- F1 with its roll field changed, XOR unchanged (95_test_vectors.md section 1: roll is 0 there). -/
def f1Roll : List Byte := f1.take 3 ++ [0x55#8, 0x55#8] ++ f1.drop 5

theorem witness_UnusedFieldsDoNotReachTheSolution : ∃ s' t' : State,
    (63#6).toNat ≤ 63 - ready1.fill.tail.toNat ∧ (63#6).toNat ≤ 63 - (filling (listed f1Roll 0#6)).fill.tail.toNat ∧
    (ready1.fill.verify (63#6).toNat ready1.draws).2 = true ∧
    ((filling (listed f1Roll 0#6)).fill.verify (63#6).toNat (filling (listed f1Roll 0#6)).draws).2 = true ∧
    (∀ a ∈ [7, 8, 21, 22, 23, 24, 25, 26, 27, 28, 29, 30, 31, 32, 39, 46, 47, 48, 49, 50, 51, 56],
      (ready1.fill.verify (63#6).toNat ready1.draws).1.byte a =
        ((filling (listed f1Roll 0#6)).fill.verify (63#6).toNat (filling (listed f1Roll 0#6)).draws).1.byte a) ∧
    exec (.notify 63#6) ready1 = .next s' ∧ exec (.notify 63#6) (filling (listed f1Roll 0#6)) = .next t' := by
  obtain ⟨s', hs, -⟩ := notify_next (s := ready1) (n := 63#6) (by decide)
  obtain ⟨t', ht, -⟩ := notify_next (s := filling (listed f1Roll 0#6)) (n := 63#6) (by decide)
  exact ⟨s', t', by decide, by decide, by decide +kernel, by decide +kernel, by decide +kernel, hs, ht⟩

/-- The other premises of that statement: the two states agree outside the frame. -/
theorem witness_UnusedFieldsDoNotReachTheSolution_rest : ready1.pss = (filling (listed f1Roll 0#6)).pss ∧
    ready1.lastEmit = (filling (listed f1Roll 0#6)).lastEmit ∧
    ready1.lastValid = (filling (listed f1Roll 0#6)).lastValid ∧ ready1.ref = (filling (listed f1Roll 0#6)).ref ∧
    ready1.arg.now = (filling (listed f1Roll 0#6)).arg.now := ⟨rfl, rfl, rfl, rfl, rfl⟩

theorem witness_PowerOnEqualsReset : ∃ t, exec .reset ready1 = .next t := ⟨_, rfl⟩

theorem witness_RdstatReadsTheStatusWord : (filling (listed f1 62#6)).fill.tail.toNat ≤ 62 ∧
    ((3 ≤ 7 ∧ 7 ≤ 7) ∨ 7 = 14 ∨ 7 = 15 ∨ 18 ≤ 7) ∧ ((3 ≤ 18 ∧ 18 ≤ 7) ∨ 18 = 14 ∨ 18 = 15 ∨ 18 ≤ 18) := by decide

/-- Each of the three errors. -/
theorem witness_ErrorsChangeNothingElse :
    (∃ t, (commanded State.reset 0x80000000#32).port ≠ [] ∧
      step (commanded State.reset 0x80000000#32) = .next t ∧ t.res.err = true) ∧
    (∃ t, (commanded State.reset 0x30003F00#32).port ≠ [] ∧
      step (commanded State.reset 0x30003F00#32) = .next t ∧ t.res.err = true) ∧
    (∃ t, (commanded (filling (listed ten 10#6)) 0x40003600#32).port ≠ [] ∧
      step (commanded (filling (listed ten 10#6)) 0x40003600#32) = .next t ∧ t.res.err = true) :=
  ⟨⟨_, by simp [commanded], rfl, rfl⟩, ⟨_, by simp [commanded], rfl, rfl⟩, ⟨_, by simp [commanded], rfl, rfl⟩⟩

/-- All three flags set, one more error raised. -/
theorem witness_ErrorFlagsAreSticky :
    let s : State := { commanded State.reset 0x30003F00#32 with errIllegal := true, errWindow := true, errCount := true }
    ∃ t, step s = .next t ∧ (∀ c rest, s.port = c :: rest → decode c.word ≠ .legal .reset) ∧
      s.errIllegal = true ∧ s.errWindow = true ∧ s.errCount = true := by
  have hd : decode 0x30003F00#32 = .legal (.wrbuf 63#6 0#8) := by decide
  refine ⟨_, rfl, fun c rest h => ?_, rfl, rfl, rfl⟩
  obtain ⟨rfl, -⟩ := List.cons.inj h
  simp [hd]

theorem witness_ErrorFlagsDoNotInfluenceCommands : ∃ s' t' : State, Instr.notify 63#6 ≠ .rdstat ∧
    exec (.notify 63#6) ready1 = .next s' ∧
    exec (.notify 63#6) { ready1 with errIllegal := true, errWindow := false, errCount := true } = .next t' := by
  obtain ⟨s', hs, -⟩ := notify_next (s := ready1) (n := 63#6) (by decide)
  obtain ⟨t', ht, -⟩ := notify_next
    (s := { ready1 with errIllegal := true, errWindow := false, errCount := true }) (n := 63#6) (by decide)
  exact ⟨s', t', by simp, hs, ht⟩

/-- A step of NOTIFY 63 over F1, which verifies, latches and emits: premises of FaultRecordOnlyGrows,
PssChangesOnlyByATaggedFrame, EmissionTimeChangesOnlyByEmission and CurrentBufferChangesOnlyByASwap. -/
theorem witness_stepOverF1 : ∃ t, step (commanded ready1 0x40003F00#32) = .next t ∧
    (∀ c rest, (commanded ready1 0x40003F00#32).port = c :: rest →
      decode c.word = .legal (.notify 63#6) ∧ decode c.word ≠ .legal .reset) ∧ t.res.err = false ∧ t.res.kind ≠ 0#2 := by
  have hd : decode 0x40003F00#32 = .legal (.notify 63#6) := by decide
  have hs : step (commanded ready1 0x40003F00#32) = exec (.notify 63#6) { ready1 with port := [], arg := arg0 } := by
    simp [step, commanded, hd, State.accept]
  obtain ⟨t, ht, he⟩ := notify_next (s := { ready1 with port := [], arg := arg0 }) (n := 63#6) (by decide)
  have hk : ((next? (exec (.notify 63#6) { ready1 with port := [], arg := arg0 })).all fun t => t.res.kind != 0#2) = true := by
    decide +kernel
  rw [ht] at hk
  refine ⟨t, hs.trans ht, fun c rest h => ?_, he, by simpa [next?] using hk⟩
  obtain ⟨rfl, -⟩ := List.cons.inj h
  simp [hd]

theorem witness_FaultRecordOnlyGrows : ∃ t, step (commanded ready1 0x40003F00#32) = .next t :=
  witness_stepOverF1.imp fun _ h => h.1

theorem witness_PssChangesOnlyByATaggedFrame : ∃ t, step (commanded ready1 0x40003F00#32) = .next t :=
  witness_stepOverF1.imp fun _ h => h.1

theorem witness_EmissionTimeChangesOnlyByEmission : ∃ t, step (commanded ready1 0x40003F00#32) = .next t ∧
    (∀ c rest, (commanded ready1 0x40003F00#32).port = c :: rest → decode c.word = .legal (.notify 63#6)) ∧
    t.res.err = false ∧ t.res.kind ≠ 0#2 :=
  witness_stepOverF1.imp fun _ h => ⟨h.1, fun c rest hp => (h.2.1 c rest hp).1, h.2.2⟩

theorem witness_CurrentBufferChangesOnlyByASwap : ∃ t, step (commanded ready1 0x40003F00#32) = .next t ∧
    ∀ c rest, (commanded ready1 0x40003F00#32).port = c :: rest → decode c.word ≠ .legal .reset :=
  witness_stepOverF1.imp fun _ h => ⟨h.1, fun c rest hp => (h.2.1 c rest hp).2⟩

/-- A full list of bytes read from the frame's cells is sound whatever its DEF bits. -/
theorem sound_of {f : FrameBuffer} (hw : f.cells.wf)
    (hd : ∀ i, i < 63 → f.isDef i = true → (f.cells.read? i).isSome = true) : f.Sound :=
  ⟨hw, fun i hi => hd i (Nat.lt_of_not_le fun h => by simp [FrameBuffer.isDef, BitVec.getLsbD_of_ge _ _ h] at hi) hi⟩

/-- An emission behind it, F1 current, ten bytes of a frame in the filling buffer, GETBUF on the port. -/
theorem witness_StepKeepsTheInvariant : (promoted1 0x20000000#32).Inv ∧
    ∃ t, step (promoted1 0x20000000#32) = .next t := by
  refine ⟨⟨sound_of (by decide +kernel) (by decide +kernel), sound_of (by decide +kernel) (by decide +kernel),
    by decide, ?_, fun h => absurd h (by decide), fun _ => ⟨rfl, by decide +kernel, ?_⟩, rfl⟩, _, rfl⟩
  · unfold FrameBuffer.HoldsHeader
    decide +kernel
  · unfold FrameBuffer.HoldsHeader
    decide +kernel

/-- Both sides of the edge 2^1024 − 2^970: the last integer below it rounds to the largest finite word, the edge
itself to an infinity. -/
theorem witness_RoundingIsToNearestEven :
    |(((2 : ℚ) ^ 1024 - 2 ^ 970 - 1 : ℚ) : ℝ)| < 2 ^ 1024 - 2 ^ 970 ∧
    fl ((2 : ℚ) ^ 1024 - 2 ^ 970 - 1) = 0x7FEFFFFFFFFFFFFF#64 ∧
    (2 : ℝ) ^ 1024 - 2 ^ 970 ≤ |(((2 : ℚ) ^ 1024 - 2 ^ 970 : ℚ) : ℝ)| ∧
    fl ((2 : ℚ) ^ 1024 - 2 ^ 970) = 0x7FF0000000000000#64 := by
  have edge : (1 : ℝ) ≤ 2 ^ 1024 - 2 ^ 970 := by
    have h1 : (1 : ℝ) ≤ 2 ^ 970 := one_le_pow₀ (by norm_num)
    have h2 : (2 : ℝ) ^ 1024 = 2 ^ 970 * 2 ^ 54 := by rw [← pow_add]
    rw [h2]
    generalize (2 : ℝ) ^ 970 = x at h1
    linarith
  refine ⟨?_, by decide +kernel, ?_, by decide +kernel⟩
  · have key : ∀ a b : ℝ, 1 ≤ a - b → |a - b - 1| < a - b := fun a b h => by
      rw [abs_of_nonneg (by linarith)]
      linarith
    simpa only [Rat.cast_sub, Rat.cast_pow, Rat.cast_ofNat, Rat.cast_one] using key _ _ edge
  · simp only [Rat.cast_sub, Rat.cast_pow, Rat.cast_ofNat]
    exact le_abs_self _

/-- 1 and 2 for the clauses about results that are not 0; 0, 1 and −1 for those about zeros. -/
theorem witness_ProductAndSumRoundOnce :
    (f64Finite 0x3FF0000000000000#64 = true ∧ f64Finite 0x4000000000000000#64 = true ∧ f64Val 0x3FF0000000000000#64 * f64Val 0x4000000000000000#64 ≠ 0 ∧
      f64Val 0x4000000000000000#64 ≠ 0 ∧ f64Val 0x3FF0000000000000#64 ≠ 0 ∧ f64Val 0x3FF0000000000000#64 + f64Val 0x4000000000000000#64 ≠ 0 ∧ f64Val 0x3FF0000000000000#64 - f64Val 0x4000000000000000#64 ≠ 0) ∧
    (f64Finite 0#64 = true ∧ f64Val 0#64 = 0 ∧ f64Val 0#64 * f64Val 0x3FF0000000000000#64 = 0) ∧
    (f64Finite 0xBFF0000000000000#64 = true ∧ f64Val 0x3FF0000000000000#64 + f64Val 0xBFF0000000000000#64 = 0 ∧ f64Val 0x3FF0000000000000#64 - f64Val 0x3FF0000000000000#64 = 0) := by
  decide +kernel

theorem witness_XfUpIsExactAndZerosAreZeros : arg0.o.lat = (⟨300000000#32, 5#32, 6#32⟩ : Wgs84).lat ∧
    arg0.o.lon = (⟨1#32, 1200000000#32, 6#32⟩ : Wgs84).lon := ⟨rfl, rfl⟩

/-- A library with TAN and ATAN the identity, COS 1 and HYP its first argument: the radius is A and more. -/
def plainLib : MathLib where
  cos := fun _ => 0x3FF0000000000000#64
  sin := fun _ => 0#64
  tan := fun x => x
  atan := fun x => x
  hyp := fun x _ => x

theorem witness_ReferenceTransformHasTheNamedProperties : plainLib.tan 0#64 = 0#64 ∧
    f64Finite (refRadius plainLib arg0.o) = true ∧ f64Finite (refParallel plainLib arg0.o) = true ∧
    arg0.o.lat = (⟨300000000#32, 5#32, 6#32⟩ : Wgs84).lat ∧
    arg0.o.lon = (⟨1#32, 1200000000#32, 6#32⟩ : Wgs84).lon := by decide +kernel

theorem witness_ReferenceInverseOfZeroIsTheOffset : plainLib.atan 0#64 = 0#64 ∧
    plainLib.atan 0x8000000000000000#64 = 0x8000000000000000#64 ∧
    f64NaN (refRadius plainLib arg0.o) = false ∧ f64NaN (refParallel plainLib arg0.o) = false ∧
    (f64Finite (refRadius plainLib arg0.o) = true → f64Val (refRadius plainLib arg0.o) ≠ 0) ∧
    (f64Finite (refParallel plainLib arg0.o) = true → f64Val (refParallel plainLib arg0.o) ≠ 0) := by decide +kernel

theorem witness_RniIsToNearestEven : f64Finite 0x4004000000000000#64 = true := by decide

/-- 53 bytes behind TAIL 10 fill the window; no bytes at all; 63 bytes in an empty one. -/
theorem witness_FeedDeliversItsBytes : (f1.drop 10).length ≤ 63 - (filling (listed ten 10#6)).fill.tail.toNat ∧
    ([] : List Byte).length ≤ 63 - State.reset.fill.tail.toNat ∧ f1.length ≤ 63 - State.reset.fill.tail.toNat := by
  decide

/-- Program P5's stream: the false header G and 40 bytes of F1 in one chunk, then the rest of F1. -/
theorem witness_GarbageThenFrameGivesTheFrame : ∃ (t t' : State) (rs rs' : List Res),
    (State.reset.fill.tail = 0#6 ∧ FrameBytesOk f1 ∧ f1.take 3 = [0xBD#8, 0xDB#8, 0x0B#8]) ∧
    (∀ q, q < (gF1.take 23).length → ((gF1.take 23 ++ f1).drop q).take 3 = [0xBD#8, 0xDB#8, 0x0B#8] →
      ¬ FrameBytesOk (((gF1.take 23 ++ f1).drop q).take 63)) ∧
    (([(1000000#64, gF1)] ++ [(1001000#64, f1.drop 40)]).map Prod.snd).flatten = gF1.take 23 ++ f1 ∧ f1.drop 40 ≠ [] ∧
    FeedsFit arg0 ([(1000000#64, gF1)] ++ [(1001000#64, f1.drop 40)]) State.reset ∧
    run (feeds arg0 ([(1000000#64, gF1)] ++ [(1001000#64, f1.drop 40)])) State.reset = some (t, rs) ∧
    run (feed arg0 1001000#64 f1) State.reset = some (t', rs') := by
  have h1 : (run (feeds arg0 ([(1000000#64, gF1)] ++ [(1001000#64, f1.drop 40)])) State.reset).isSome = true := by
    decide +kernel
  have h2 : (run (feed arg0 1001000#64 f1) State.reset).isSome = true := by decide +kernel
  have h3 : ((run (feed arg0 1000000#64 gF1) State.reset).all fun x => decide (23 ≤ x.1.fill.windowLen)) = true := by
    decide +kernel
  obtain ⟨⟨t, rs⟩, ht⟩ := Option.isSome_iff_exists.1 h1
  obtain ⟨⟨t', rs'⟩, ht'⟩ := Option.isSome_iff_exists.1 h2
  refine ⟨t, t', rs, rs', ⟨by decide, ?_, by decide⟩, ?_, by decide, by decide, ⟨by decide, fun u _ hu => ?_⟩, ht, ht'⟩
  · unfold FrameBytesOk
    decide +kernel
  · unfold FrameBytesOk
    decide +kernel
  · rw [hu, Option.all_some, decide_eq_true_iff] at h3
    exact ⟨h3, fun _ _ _ => trivial⟩

end Sys2Proof.Tests
end

section
/-! SUPPORT. Binary64 words, field by field (00_scope.md R13): what packing, negation and the value of a word are. -/

namespace Sys2Proof.Machine

theorem f64Neg_eq (x : Binary64) : f64Neg x = decide (2 ^ 63 ≤ x.toNat) := BitVec.msb_eq_decide x

theorem f64Exp_eq (x : Binary64) : f64Exp x = x.toNat / 2 ^ 52 % 2 ^ 11 := by
  rw [f64Exp, BitVec.extractLsb'_toNat, Nat.shiftRight_eq_div_pow]

theorem f64Frac_eq (x : Binary64) : f64Frac x = x.toNat % 2 ^ 52 := by
  rw [f64Frac, BitVec.extractLsb'_toNat, Nat.shiftRight_zero]

theorem toNat_f64Pack (neg : Bool) {b : ℕ} (hb : b < 2 ^ 63) :
    (f64Pack neg b).toNat = b + if neg then 2 ^ 63 else 0 := by
  rw [f64Pack, BitVec.toNat_ofNat]
  exact Nat.mod_eq_of_lt (by split <;> omega)

theorem f64Neg_f64Pack (neg : Bool) {b : ℕ} (hb : b < 2 ^ 63) : f64Neg (f64Pack neg b) = neg := by
  rw [f64Neg_eq, toNat_f64Pack neg hb]
  cases neg
  · simpa using hb
  · simp

theorem f64Exp_f64Pack (neg : Bool) {b : ℕ} (hb : b < 2 ^ 63) : f64Exp (f64Pack neg b) = b / 2 ^ 52 := by
  rw [f64Exp_eq, toNat_f64Pack neg hb]
  split <;> omega

theorem f64Frac_f64Pack (neg : Bool) {b : ℕ} (hb : b < 2 ^ 63) : f64Frac (f64Pack neg b) = b % 2 ^ 52 := by
  rw [f64Frac_eq, toNat_f64Pack neg hb]
  split <;> omega

theorem infBits_lt : infBits < 2 ^ 63 := by decide

theorem f64Finite_f64Pack (neg : Bool) {b : ℕ} (hb : b < infBits) : f64Finite (f64Pack neg b) = true := by
  rw [f64Finite, f64Exp_f64Pack neg (hb.trans infBits_lt), bne_iff_ne]
  rw [infBits] at hb
  omega

theorem f64Inf_infOf (neg : Bool) : f64Inf (f64InfOf neg) = true := by
  rw [f64Inf, f64InfOf, f64Exp_f64Pack neg infBits_lt, f64Frac_f64Pack neg infBits_lt]
  decide

@[simp] theorem f64Neg_fneg (x : Binary64) : f64Neg (fneg x) = !f64Neg x := by
  rw [f64Neg, f64Neg, fneg, BitVec.msb_xor, show (0x8000000000000000#64).msb = true from rfl, Bool.xor_true]

@[simp] theorem f64Exp_fneg (x : Binary64) : f64Exp (fneg x) = f64Exp x := by
  simp [f64Exp, fneg, BitVec.extractLsb'_xor]

@[simp] theorem f64Frac_fneg (x : Binary64) : f64Frac (fneg x) = f64Frac x := by
  simp [f64Frac, fneg, BitVec.extractLsb'_xor]

@[simp] theorem f64Finite_fneg (x : Binary64) : f64Finite (fneg x) = f64Finite x := by simp [f64Finite]

@[simp] theorem f64Abs_fneg (x : Binary64) : f64Abs (fneg x) = f64Abs x := by simp [f64Abs]

@[simp] theorem f64Val_fneg (x : Binary64) : f64Val (fneg x) = -f64Val x := by
  cases h : f64Neg x <;> simp [f64Val, h]

theorem f64NaN_of_finite {x : Binary64} (h : f64Finite x = true) : f64NaN x = false := by
  simp_all [f64Finite, f64NaN]

theorem f64Inf_of_finite {x : Binary64} (h : f64Finite x = true) : f64Inf x = false := by
  simp_all [f64Finite, f64Inf]

theorem pow2_eq_zpow (k : ℤ) : pow2 k = (2 : ℚ) ^ k := by
  unfold pow2
  split
  next h =>
    obtain ⟨n, rfl⟩ := Int.eq_ofNat_of_zero_le h
    simp
  next h =>
    obtain ⟨n, rfl⟩ : ∃ n : ℕ, k = -(n : ℤ) := ⟨(-k).toNat, by omega⟩
    simp [Rat.mkRat_eq_div]

theorem f64Abs_nonneg (x : Binary64) : 0 ≤ f64Abs x := by
  unfold f64Abs
  rw [pow2_eq_zpow, pow2_eq_zpow]
  split <;> positivity

theorem abs_f64Val (x : Binary64) : |f64Val x| = f64Abs x := by
  unfold f64Val
  split <;> simp [abs_of_nonneg (f64Abs_nonneg x)]

@[simp] theorem f64Abs_eq_zero (x : Binary64) : f64Abs x = 0 ↔ f64Val x = 0 := by
  rw [← abs_f64Val, abs_eq_zero]

/-- The sign bit of a word whose value is not 0 is the sign of the value. -/
theorem f64Neg_eq_decide {x : Binary64} (h : f64Val x ≠ 0) : f64Neg x = decide (f64Val x < 0) := by
  have hx : 0 < f64Abs x := (f64Abs_nonneg x).lt_of_ne' (mt (f64Abs_eq_zero x).1 h)
  unfold f64Val
  split <;> simp_all [hx.le]

theorem f64Val_f64Pack_zero (neg : Bool) : f64Val (f64Pack neg 0) = 0 := by
  rw [← f64Abs_eq_zero, f64Abs, f64Exp_f64Pack neg (by decide), f64Frac_f64Pack neg (by decide)]
  simp

/-- The integer with this sign and this absolute value. -/
def signedInt (neg : Bool) (k : ℕ) : ℤ := if neg then -k else k

@[simp] theorem even_signedInt (neg : Bool) (k : ℕ) : Even (signedInt neg k) ↔ Even k := by
  cases neg <;> simp [signedInt]

@[simp] theorem abs_signedInt (neg : Bool) (k : ℕ) : |signedInt neg k| = k := by
  cases neg <;> simp [signedInt]

theorem f64Val_eq_signedInt {x : Binary64} {k : ℕ} {u : ℚ} (h : f64Abs x = k * u) :
    f64Val x = signedInt (f64Neg x) k * u := by
  rw [f64Val, h]
  cases f64Neg x <;> simp [signedInt]

/-- Every word's value is a whole number of at most 53 bits in units of its last place. -/
theorem f64Val_eq_int_mul_zpow (x : Binary64) :
    ∃ m f : ℤ, |m| < 2 ^ 53 ∧ -1074 ≤ f ∧ f64Val x = m * (2 : ℚ) ^ f := by
  have hfrac : f64Frac x < 2 ^ 52 := f64Frac_eq x ▸ Nat.mod_lt _ (by decide)
  obtain ⟨m, f, hm, hf, hx⟩ : ∃ (m : ℕ) (f : ℤ), m < 2 ^ 53 ∧ -1074 ≤ f ∧ f64Abs x = m * (2 : ℚ) ^ f := by
    unfold f64Abs
    rw [pow2_eq_zpow, pow2_eq_zpow]
    split
    · exact ⟨f64Frac x, -1074, by omega, le_rfl, rfl⟩
    · exact ⟨2 ^ 52 + f64Frac x, f64Exp x - 1075, by omega, by omega, rfl⟩
  refine ⟨signedInt (f64Neg x) m, f, ?_, hf, f64Val_eq_signedInt hx⟩
  rw [abs_signedInt]
  exact_mod_cast hm

/-- The word whose bits are those of exponent `e` plus `k` has the absolute value `k · 2^e`, also where `k` carries
into the exponent field. -/
theorem f64Abs_f64Pack (neg : Bool) {e : ℤ} {k : ℕ} (he : -1074 ≤ e) (hk : k ≤ 2 ^ 53)
    (hnorm : e = -1074 ∨ 2 ^ 52 ≤ k) (hfin : (e + 1074).toNat * 2 ^ 52 + k < infBits) :
    f64Abs (f64Pack neg ((e + 1074).toNat * 2 ^ 52 + k)) = k * (2 : ℚ) ^ e := by
  have hb := hfin.trans infBits_lt
  obtain ⟨j, rfl⟩ : ∃ j : ℕ, e = (j : ℤ) - 1074 := ⟨(e + 1074).toNat, by omega⟩
  rw [sub_add_cancel, Int.toNat_natCast] at *
  rw [f64Abs, f64Exp_f64Pack neg hb, f64Frac_f64Pack neg hb, pow2_eq_zpow, pow2_eq_zpow]
  rcases lt_or_ge k (2 ^ 52) with hsub | hge
  · obtain rfl : j = 0 := by omega
    rw [if_pos (by omega), Nat.zero_mul, Nat.zero_add, Nat.mod_eq_of_lt hsub]
    norm_num
  rcases hk.lt_or_eq with hlt | rfl
  · have hexp : (j * 2 ^ 52 + k) / 2 ^ 52 = j + 1 := by omega
    have hfrac : (j * 2 ^ 52 + k) % 2 ^ 52 = k - 2 ^ 52 := by omega
    rw [hexp, hfrac, if_neg (by omega), Nat.add_sub_cancel' hge]
    congr 2
    push_cast
    ring
  · have hexp : (j * 2 ^ 52 + 2 ^ 53) / 2 ^ 52 = j + 2 := by omega
    have hfrac : (j * 2 ^ 52 + 2 ^ 53) % 2 ^ 52 = 0 := by omega
    have hcarry : ((j + 2 : ℕ) : ℤ) - 1075 = (j - 1074) + 1 := by push_cast; ring
    rw [hexp, hfrac, if_neg (by omega), hcarry, zpow_add_one₀ two_ne_zero]
    push_cast
    ring

/-- The value, with its sign, of the word whose bits are those of exponent `e` plus `k`. -/
theorem f64Val_f64Pack (neg : Bool) {e : ℤ} {k : ℕ} (he : -1074 ≤ e) (hk : k ≤ 2 ^ 53)
    (hnorm : e = -1074 ∨ 2 ^ 52 ≤ k) (hfin : (e + 1074).toNat * 2 ^ 52 + k < infBits) :
    f64Val (f64Pack neg ((e + 1074).toNat * 2 ^ 52 + k)) = signedInt neg k * (2 : ℚ) ^ e := by
  rw [f64Val_eq_signedInt (f64Abs_f64Pack neg he hk hnorm hfin), f64Neg_f64Pack neg (hfin.trans infBits_lt)]

end Sys2Proof.Machine
end

section
/-! SUPPORT. Rounding on the reals (00_scope.md R13, 42_geodetic.md R191): with `e` the exponent of the last place of
`r`, the whole number nearest `r / 2^e` gives the binary64 value nearest `r`. -/

namespace Sys2Proof.Machine

theorem RoundsToInt.neg {x : ℝ} {n : ℤ} (h : RoundsToInt x n) : RoundsToInt (-x) (-n) := by
  have hdist : |-x - ((-n : ℤ) : ℝ)| = |x - n| := by
    rw [Int.cast_neg, neg_sub_neg, abs_sub_comm]
  rwa [RoundsToInt, hdist, even_neg]

/-- A number is rounded by rounding its absolute value and keeping the sign. -/
theorem RoundsToInt.of_abs {x : ℝ} {k : ℕ} {neg : Bool} (h : RoundsToInt |x| k) (hneg : neg = true ↔ x < 0) :
    RoundsToInt x (signedInt neg k) := by
  cases neg
  · rwa [abs_of_nonneg (not_lt.1 (mt hneg.2 Bool.false_ne_true))] at h
  · rw [abs_of_neg (hneg.1 rfl)] at h
    simpa [signedInt] using h.neg

theorem RoundsToInt.dist_le_half {x : ℝ} {n : ℤ} (h : RoundsToInt x n) : |x - n| ≤ 1 / 2 :=
  h.elim le_of_lt fun h => h.1.le

/-- A rounded number keeps an integer lower bound. -/
theorem RoundsToInt.le_of_le {x : ℝ} {n j : ℤ} (h : RoundsToInt x n) (hj : (j : ℝ) ≤ x) : j ≤ n := by
  have hlt : (j : ℝ) < n + 1 := by linarith [(abs_le.1 h.dist_le_half).2]
  exact Int.lt_add_one_iff.1 (by exact_mod_cast hlt)

/-- A rounded number keeps an integer upper bound. -/
theorem RoundsToInt.le_of_ge {x : ℝ} {n j : ℤ} (h : RoundsToInt x n) (hj : x ≤ j) : n ≤ j := by
  have hlt : (n : ℝ) < j + 1 := by linarith [(abs_le.1 h.dist_le_half).1]
  exact Int.lt_add_one_iff.1 (by exact_mod_cast hlt)

/-- An even integer is reached from half a place below it, that tie included. -/
theorem RoundsToInt.le_iff_of_even {x : ℝ} {n j : ℤ} (h : RoundsToInt x n) (hj : Even j) :
    j ≤ n ↔ (j : ℝ) - 1 / 2 ≤ x := by
  obtain ⟨hlo, hhi⟩ := abs_le.1 h.dist_le_half
  constructor
  · intro hle
    have hle' : (j : ℝ) ≤ n := by exact_mod_cast hle
    linarith
  · intro hx
    by_contra hlt
    have hlt' : (n : ℝ) + 1 ≤ j := by exact_mod_cast not_le.1 hlt
    have htie : |x - n| = 1 / 2 := by rw [show x - n = 1 / 2 by linarith]; norm_num
    have hn : n + 1 = j := by exact_mod_cast (show (n : ℝ) + 1 = j by linarith)
    have heven : Even n := (h.resolve_left htie.not_lt).2
    rw [← hn] at hj
    exact Int.not_even_iff_odd.2 heven.add_one hj

/-- No integer is nearer than the rounded one, and of two equally near ones the rounded one is even. -/
theorem RoundsToInt.nearest {x : ℝ} {n : ℤ} (h : RoundsToInt x n) (j : ℤ) :
    |(n : ℝ) - x| < |(j : ℝ) - x| ∨ j = n ∨ (|(n : ℝ) - x| = |(j : ℝ) - x| ∧ Even n) := by
  by_cases hjn : j = n
  · exact .inr (.inl hjn)
  have hone : (1 : ℝ) ≤ |(j : ℝ) - n| := by exact_mod_cast Int.one_le_abs (sub_ne_zero.2 hjn)
  have htri : |(j : ℝ) - n| ≤ |(j : ℝ) - x| + |x - n| := abs_sub_le ..
  rw [abs_sub_comm (n : ℝ) x]
  rcases h with hlt | ⟨htie, heven⟩
  · exact .inl (by linarith)
  · exact (show |x - n| ≤ |(j : ℝ) - x| by linarith).lt_or_eq.imp_right fun heq => .inr ⟨heq, heven⟩

/-- What lies nearer to 0 than an integer that `x` reaches is further from `x` than the rounded number is. -/
theorem RoundsToInt.dist_lt {x t : ℝ} {n j : ℤ} (h : RoundsToInt x n) (ht : |t| < j) (hx : (j : ℝ) ≤ |x|) :
    |(n : ℝ) - x| < |t - x| := by
  have hint : ∀ i : ℤ, |(n : ℝ) - x| ≤ |(i : ℝ) - x| := fun i => by
    rcases h.nearest i with hi | rfl | hi
    exacts [hi.le, le_rfl, hi.1.le]
  obtain ⟨hlo, hhi⟩ := abs_lt.1 ht
  rcases le_total 0 x with h0 | h0
  · rw [abs_of_nonneg h0] at hx
    calc |(n : ℝ) - x| ≤ |(j : ℝ) - x| := hint j
      _ = x - j := by rw [abs_of_nonpos (by linarith), neg_sub]
      _ < x - t := by linarith
      _ ≤ |t - x| := by rw [← neg_sub]; exact neg_le_abs _
  · rw [abs_of_nonpos h0] at hx
    calc |(n : ℝ) - x| ≤ |((-j : ℤ) : ℝ) - x| := hint (-j)
      _ = -j - x := by rw [Int.cast_neg, abs_of_nonneg (by linarith)]
      _ < t - x := by linarith
      _ ≤ |t - x| := le_abs_self _

/-- `2^e` is the last place of `r` in binary64: `r / 2^e` has a whole part of 53 bits, or of fewer and `e` is the
least exponent. -/
structure IsLastPlace (r : ℝ) (e : ℤ) : Prop where
  least : -1074 ≤ e
  lt : |r| < 2 ^ 53 * (2 : ℝ) ^ e
  normal : e = -1074 ∨ 2 ^ 52 * (2 : ℝ) ^ e ≤ |r|

namespace IsLastPlace

variable {r : ℝ} {e n : ℤ}

theorem abs_iff : IsLastPlace |r| e ↔ IsLastPlace r e where
  mp := fun ⟨hleast, hlt, hnormal⟩ => ⟨hleast, by rwa [abs_abs] at hlt, by rwa [abs_abs] at hnormal⟩
  mpr := fun ⟨hleast, hlt, hnormal⟩ => ⟨hleast, by rwa [abs_abs], by rwa [abs_abs]⟩

/-- No binary64 value `m · 2^f` is nearer to `r` than `n · 2^e`: where `e ≤ f` it is a whole number of last places,
and where `f < e` it is below `2^52` of them, which `r` is not. -/
theorem nearest {m f : ℤ} (he : IsLastPlace r e) (hn : RoundsToInt (r / (2 : ℝ) ^ e) n)
    (hm : |m| < 2 ^ 53) (hf : -1074 ≤ f) :
    |(n : ℝ) * 2 ^ e - r| < |(m : ℝ) * 2 ^ f - r| ∨ (m : ℝ) * 2 ^ f = n * 2 ^ e ∨
      (|(n : ℝ) * 2 ^ e - r| = |(m : ℝ) * 2 ^ f - r| ∧ Even n) := by
  have hu : (0 : ℝ) < 2 ^ e := by positivity
  have hscale : ∀ a : ℝ, |a * 2 ^ e - r| = |a - r / 2 ^ e| * 2 ^ e := fun a => by
    rw [← abs_of_pos hu, ← abs_mul, sub_mul, abs_of_pos hu, div_mul_cancel₀ r hu.ne']
  obtain ⟨t, ht⟩ : ∃ t : ℝ, (m : ℝ) * 2 ^ f = t * 2 ^ e := ⟨_, (div_mul_cancel₀ _ hu.ne').symm⟩
  rw [ht, hscale, hscale, mul_lt_mul_iff_left₀ hu, mul_left_inj' hu.ne', mul_left_inj' hu.ne']
  rcases le_or_gt e f with hef | hfe
  · obtain ⟨k, rfl⟩ : ∃ k : ℕ, f = e + k := ⟨(f - e).toNat, by omega⟩
    obtain rfl : ((m * 2 ^ k : ℤ) : ℝ) = t := by
      rw [zpow_add₀ two_ne_zero, zpow_natCast, mul_left_comm, mul_comm] at ht
      exact_mod_cast mul_right_cancel₀ hu.ne' ht
    rw [Int.cast_inj]
    exact hn.nearest _
  · have hr : 2 ^ 52 ≤ |r / 2 ^ e| := by
      rw [abs_div, abs_of_pos hu, le_div_iff₀ hu]
      exact he.normal.resolve_left (by omega)
    have hsmall : |t| < 2 ^ 52 := by
      have hstep : (2 : ℝ) ^ (f + 1) ≤ 2 ^ e := zpow_le_zpow_right₀ one_le_two (by omega)
      rw [zpow_add_one₀ two_ne_zero] at hstep
      have hm' : |(m : ℝ)| < 2 ^ 53 := by exact_mod_cast hm
      have hfpos : (0 : ℝ) < 2 ^ f := by positivity
      refine lt_of_mul_lt_mul_right ?_ hu.le
      calc |t| * 2 ^ e = |(m : ℝ)| * 2 ^ f := by
            rw [← abs_of_pos hfpos, ← abs_mul, ht, abs_mul, abs_of_pos hu]
        _ < 2 ^ 53 * 2 ^ f := by gcongr
        _ = 2 ^ 52 * (2 ^ f * 2) := by ring
        _ ≤ 2 ^ 52 * 2 ^ e := by gcongr
    exact .inl (hn.dist_lt (j := 2 ^ 52) (by exact_mod_cast hsmall) (by exact_mod_cast hr))

/-- The rounded number of last places is at most `2^53`, a carry included, and below `2^52` at the least exponent
only. -/
theorem significand_bounds {k : ℕ} (he : IsLastPlace r e) (hk : RoundsToInt (|r| / (2 : ℝ) ^ e) k) :
    k ≤ 2 ^ 53 ∧ (e = -1074 ∨ 2 ^ 52 ≤ k) := by
  have hu : (0 : ℝ) < 2 ^ e := by positivity
  obtain ⟨-, hlt, hnormal⟩ := he
  have hle := hk.le_of_ge (j := 2 ^ 53) (by rw [div_le_iff₀ hu]; exact_mod_cast hlt.le)
  refine ⟨by exact_mod_cast hle, hnormal.imp_right fun hge => ?_⟩
  have hge' := hk.le_of_le (j := 2 ^ 52) (by rw [le_div_iff₀ hu]; exact_mod_cast hge)
  exact_mod_cast hge'

/-- The bits reach those of an infinity from half a place beyond the largest finite value on: at exponent 971, where
the next value would be the even `2^53` places. -/
theorem infBits_le_iff {k : ℕ} (he : IsLastPlace r e) (hk : RoundsToInt (|r| / (2 : ℝ) ^ e) k) :
    infBits ≤ (e + 1074).toNat * 2 ^ 52 + k ↔ 2 ^ 1024 - 2 ^ 970 ≤ |r| := by
  have hu : (0 : ℝ) < 2 ^ e := by positivity
  obtain ⟨hk53, hk52⟩ := he.significand_bounds hk
  obtain ⟨hleast, hlt, hnormal⟩ := he
  have hedge : (2 : ℝ) ^ 1024 - 2 ^ 970 = (2 ^ 53 - 1 / 2) * (2 : ℝ) ^ (971 : ℤ) := by
    rw [show (2 : ℝ) ^ 1024 = 2 ^ 970 * 2 ^ 54 by rw [← pow_add],
      show (2 : ℝ) ^ (971 : ℤ) = 2 ^ 970 * 2 from pow_succ (2 : ℝ) 970]
    generalize (2 : ℝ) ^ 970 = half
    ring
  rw [hedge, infBits]
  rcases lt_trichotomy e 971 with hlow | rfl | hhigh
  · have hstep : (2 : ℝ) ^ (e + 1) ≤ 2 ^ (971 : ℤ) := zpow_le_zpow_right₀ one_le_two (by omega)
    rw [zpow_add_one₀ two_ne_zero] at hstep
    generalize (2 : ℝ) ^ (971 : ℤ) = top at hstep
    exact iff_of_false (by omega) (by linarith)
  · rw [← le_div_iff₀ hu, show (2 : ℝ) ^ 53 - 1 / 2 = ((2 ^ 53 : ℤ) : ℝ) - 1 / 2 by norm_cast,
      ← hk.le_iff_of_even (by decide)]
    omega
  · have hstep : (2 : ℝ) ^ (971 + 1 : ℤ) ≤ 2 ^ e := zpow_le_zpow_right₀ one_le_two (by omega)
    rw [zpow_add_one₀ two_ne_zero] at hstep
    have hge := hnormal.resolve_left (by omega)
    generalize (2 : ℝ) ^ (971 : ℤ) = top at hstep
    exact iff_of_true (by omega) (by linarith)

end IsLastPlace

end Sys2Proof.Machine
end

section
/-! SUPPORT. What the integer computation behind `fl` answers (00_scope.md R13): the last place, the nearest integer,
and the bits of a rounded quotient. -/

namespace Sys2Proof.Machine

/-- Division to the nearest integer rounds the real quotient, ties to even. -/
theorem roundsToInt_divNearestEven (n : ℕ) {d : ℕ} (hd : 0 < d) :
    RoundsToInt ((n : ℝ) / d) (divNearestEven n d : ℕ) := by
  have hd' : (0 : ℝ) < d := by exact_mod_cast hd
  have hq : (n : ℝ) / d = (n / d : ℕ) + ((n % d : ℕ) : ℝ) / d := by
    rw [div_eq_iff hd'.ne', add_mul, div_mul_cancel₀ _ hd'.ne', mul_comm]
    exact_mod_cast (Nat.div_add_mod n d).symm
  have hlo : (0 : ℝ) ≤ ((n % d : ℕ) : ℝ) / d := by positivity
  have hhi : ((n % d : ℕ) : ℝ) / d < 1 := (div_lt_one hd').2 (by exact_mod_cast Nat.mod_lt n hd)
  have hgt : (1 : ℝ) / 2 < ((n % d : ℕ) : ℝ) / d ↔ d < 2 * (n % d) := by
    rw [div_lt_div_iff₀ two_pos hd', one_mul, mul_comm]
    exact_mod_cast Iff.rfl
  have heq : ((n % d : ℕ) : ℝ) / d = 1 / 2 ↔ 2 * (n % d) = d := by
    rw [div_eq_div_iff hd'.ne' two_ne_zero, one_mul, mul_comm]
    exact_mod_cast Iff.rfl
  unfold RoundsToInt divNearestEven
  rw [hq]
  generalize ((n % d : ℕ) : ℝ) / d = rest at hlo hhi hgt heq ⊢
  simp only [Bool.or_eq_true, Bool.and_eq_true, decide_eq_true_eq, beq_iff_eq, gt_iff_lt, ← hgt, ← heq]
  generalize n / d = quot
  split
  next hup =>
    have hdist : |(quot : ℝ) + rest - ((quot + 1 : ℕ) : ℤ)| = 1 - rest := by
      push_cast
      rw [abs_of_nonpos (by linarith)]
      ring
    rw [hdist]
    rcases hup with hup | ⟨htie, hodd⟩
    · exact .inl (by linarith)
    · exact .inr ⟨by linarith, by exact_mod_cast (Nat.odd_iff.2 hodd).add_one⟩
  next hdown =>
    rw [not_or, not_lt, not_and] at hdown
    rw [Int.cast_natCast, add_sub_cancel_left, abs_of_nonneg hlo]
    refine hdown.1.lt_or_eq.imp_right fun htie => ⟨htie, ?_⟩
    exact_mod_cast Nat.not_odd_iff_even.1 (mt Nat.odd_iff.1 (hdown.2 htie))

/-- The test of `ulpExp` compares the quotient with a power of two. -/
theorem ulpExp_test_iff (n : ℕ) {d : ℕ} (hd : 0 < d) (k : ℤ) :
    (if 0 ≤ k then d * 2 ^ k.toNat ≤ n else d ≤ n * 2 ^ (-k).toNat) ↔ (2 : ℝ) ^ k ≤ (n : ℝ) / d := by
  rw [le_div_iff₀ (by exact_mod_cast hd)]
  split
  next h =>
    obtain ⟨j, rfl⟩ := Int.eq_ofNat_of_zero_le h
    rw [Int.toNat_natCast, mul_comm, zpow_natCast]
    exact_mod_cast Iff.rfl
  next h =>
    obtain ⟨j, rfl⟩ : ∃ j : ℕ, k = -(j : ℤ) := ⟨(-k).toNat, by omega⟩
    rw [neg_neg, Int.toNat_natCast, zpow_neg, zpow_natCast, inv_mul_le_iff₀ (by positivity), mul_comm]
    exact_mod_cast Iff.rfl

/-- The quotient lies within a factor of two of `2` to the difference of the logarithms. -/
theorem div_bounds_of_log2 {n d : ℕ} (hn : n ≠ 0) (hd : d ≠ 0) :
    (2 : ℝ) ^ ((n.log2 : ℤ) - d.log2 - 1) ≤ (n : ℝ) / d ∧ (n : ℝ) / d < 2 ^ ((n.log2 : ℤ) - d.log2 + 1) := by
  have hd' : (0 : ℝ) < d := by exact_mod_cast Nat.pos_of_ne_zero hd
  have hnlo : (2 : ℝ) ^ n.log2 ≤ n := by exact_mod_cast Nat.log2_self_le hn
  have hnhi : (n : ℝ) < 2 ^ (n.log2 + 1) := by exact_mod_cast Nat.lt_log2_self
  have hdlo : (2 : ℝ) ^ d.log2 ≤ d := by exact_mod_cast Nat.log2_self_le hd
  have hdhi : (d : ℝ) < 2 ^ (d.log2 + 1) := by exact_mod_cast Nat.lt_log2_self
  rw [show (n.log2 : ℤ) - d.log2 - 1 = n.log2 - (d.log2 + 1 : ℕ) by push_cast; ring,
    show (n.log2 : ℤ) - d.log2 + 1 = (n.log2 + 1 : ℕ) - d.log2 by push_cast; ring,
    zpow_sub₀ two_ne_zero, zpow_sub₀ two_ne_zero, zpow_natCast, zpow_natCast, zpow_natCast, zpow_natCast]
  exact ⟨div_le_div₀ (by positivity) hnlo hd' hdhi.le, div_lt_div₀ hnhi hdlo (by positivity) (by positivity)⟩

/-- `ulpExp` puts the 53 bits at the power of two just below the quotient, and never below the least exponent. -/
theorem ulpExp_eq_max {n d : ℕ} (hn : n ≠ 0) (hd : d ≠ 0) :
    ∃ k : ℤ, (2 : ℝ) ^ k ≤ (n : ℝ) / d ∧ (n : ℝ) / d < 2 ^ (k + 1) ∧ ulpExp n d = max (-1074) (k - 52) := by
  obtain ⟨hlo, hhi⟩ := div_bounds_of_log2 hn hd
  have htest := ulpExp_test_iff n (Nat.pos_of_ne_zero hd) ((n.log2 : ℤ) - d.log2)
  by_cases hk : (2 : ℝ) ^ ((n.log2 : ℤ) - d.log2) ≤ (n : ℝ) / d
  · exact ⟨_, hk, hhi, by simp only [ulpExp, htest, if_pos hk]⟩
  · exact ⟨_, hlo, by rw [sub_add_cancel]; exact not_le.1 hk, by simp only [ulpExp, htest, if_neg hk]⟩

theorem isLastPlace_ulpExp {n d : ℕ} (hn : n ≠ 0) (hd : d ≠ 0) : IsLastPlace ((n : ℝ) / d) (ulpExp n d) := by
  obtain ⟨k, hlo, hhi, hexp⟩ := ulpExp_eq_max hn hd
  have habs : |(n : ℝ) / d| = n / d := abs_of_nonneg (by positivity)
  rw [hexp]
  refine ⟨le_max_left _ _, ?_, ?_⟩
  · rw [habs]
    calc (n : ℝ) / d < 2 ^ (k + 1) := hhi
      _ ≤ 2 ^ (53 + max (-1074) (k - 52)) := zpow_le_zpow_right₀ one_le_two (by omega)
      _ = 2 ^ 53 * 2 ^ max (-1074) (k - 52) := zpow_add₀ two_ne_zero _ _
  · rcases le_total (k - 52) (-1074) with hsub | hnorm
    · exact .inl (max_eq_left hsub)
    · right
      rw [habs, max_eq_right hnorm]
      calc (2 : ℝ) ^ 52 * 2 ^ (k - 52) = 2 ^ (52 + (k - 52)) := (zpow_add₀ two_ne_zero 52 (k - 52)).symm
        _ = 2 ^ k := by rw [add_sub_cancel]
        _ ≤ n / d := hlo

/-- The scaled integers that `roundBits` divides have the quotient `n / d / 2^e`. -/
theorem div_scaled_eq (n d : ℕ) (e : ℤ) :
    ((n * 2 ^ (-e).toNat : ℕ) : ℝ) / (d * 2 ^ e.toNat : ℕ) = (n : ℝ) / d / 2 ^ e := by
  have hpow : (2 : ℝ) ^ e = 2 ^ e.toNat / 2 ^ (-e).toNat := by
    rw [← zpow_natCast, ← zpow_natCast, ← zpow_sub₀ two_ne_zero, Int.toNat_sub_toNat_neg]
  push_cast
  rw [hpow, div_div, mul_div_assoc', div_div_eq_mul_div]

/-- The bits of a rounded quotient: its last place, and the whole number of last places nearest to it, added to the
bits of the exponent. -/
theorem roundBits_spec (n : ℕ) {d : ℕ} (hd : d ≠ 0) :
    ∃ (e : ℤ) (k : ℕ), IsLastPlace ((n : ℝ) / d) e ∧ RoundsToInt ((n : ℝ) / d / 2 ^ e) k ∧
      roundBits n d = min infBits ((e + 1074).toNat * 2 ^ 52 + k) := by
  rcases eq_or_ne n 0 with rfl | hn
  · exact ⟨-1074, 0, ⟨le_rfl, by simp, .inl rfl⟩, .inl (by norm_num), by simp [roundBits]⟩
  · refine ⟨ulpExp n d, _, isLastPlace_ulpExp hn hd, ?_, if_neg hn⟩
    rw [← div_scaled_eq]
    exact roundsToInt_divNearestEven _ (by positivity)

end Sys2Proof.Machine
end

section
/-! SUPPORT. The rounding of a real number in binary64 and `fl` of a rational (00_scope.md R13). -/

namespace Sys2Proof.Machine

/-- The word made of the last place of `r` and of the nearest whole number of such places is `r` rounded. -/
theorem IsLastPlace.rounds {r : ℝ} {e : ℤ} {k : ℕ} {neg : Bool} (he : IsLastPlace r e)
    (hk : RoundsToInt (|r| / 2 ^ e) k) (hneg : neg = true ↔ r < 0) :
    Rounds r (f64Pack neg (min infBits ((e + 1074).toNat * 2 ^ 52 + k))) := by
  have hu : (0 : ℝ) < 2 ^ e := by positivity
  obtain ⟨hk53, hk52⟩ := he.significand_bounds hk
  have hover := he.infBits_le_iff hk
  have hsign := f64Neg_f64Pack neg ((min_le_left infBits ((e + 1074).toNat * 2 ^ 52 + k)).trans_lt infBits_lt)
  refine ⟨fun hr => ?_, fun hr => ?_, fun hr => ?_, fun hr => ?_⟩
  · have hfin := not_le.1 (mt hover.1 (not_le.2 hr))
    rw [min_eq_right hfin.le] at hsign ⊢
    have hn : RoundsToInt (r / 2 ^ e) (signedInt neg k) :=
      .of_abs (by rwa [abs_div, abs_of_pos hu]) (by rw [hneg, div_lt_iff₀ hu, zero_mul])
    refine ⟨f64Finite_f64Pack neg hfin, fun y _ => ?_⟩
    obtain ⟨m, f, hm, hf, hy⟩ := f64Val_eq_int_mul_zpow y
    rw [f64Frac_f64Pack neg (hfin.trans infBits_lt), f64Val_f64Pack neg he.least hk53 hk52 hfin, hy]
    push_cast
    refine (he.nearest hn hm hf).imp_right
      (Or.imp (fun heq => Rat.cast_injective (α := ℝ) ?_) (And.imp_right fun heven => ?_))
    · push_cast
      exact heq
    · have := Nat.even_iff.1 ((even_signedInt neg k).1 heven)
      omega
  · rw [min_eq_left (hover.2 hr)]
    exact f64Inf_infOf neg
  · rw [hsign]
    exact hneg.2 hr
  · rw [hsign]
    exact Bool.eq_false_iff.2 fun h => hr.not_gt (hneg.1 h)

/-- A number's absolute value is the quotient that `fl` computes with. -/
theorem abs_eq_natAbs_div_den (q : ℚ) : |(q : ℝ)| = (q.num.natAbs : ℝ) / q.den := by
  rw [Rat.cast_def, abs_div, Nat.abs_cast, Nat.cast_natAbs, Int.cast_abs]

/-- `fl` of a rational is the rational rounded. -/
theorem rounds_fl (q : ℚ) : Rounds q (fl q) := by
  obtain ⟨e, k, he, hk, hbits⟩ := roundBits_spec q.num.natAbs q.den_ne_zero
  rw [← abs_eq_natAbs_div_den] at he hk
  rw [fl, hbits]
  exact (IsLastPlace.abs_iff.1 he).rounds hk (by simp)

/-- `fl` rounds the absolute value and sets the sign. -/
theorem flSigned_abs (q : ℚ) : flSigned (decide (q < 0)) |q| = fl q := by
  rw [flSigned, fl, Rat.num_abs_eq_abs_num, Rat.den_abs_eq_den, Int.natAbs_abs]

theorem f64Val_flSigned_zero (neg : Bool) : f64Val (flSigned neg 0) = 0 := f64Val_f64Pack_zero neg

/-- The exclusive or of two sign bits is the sign of the product. -/
theorem bne_f64Neg_eq {x y : Binary64} (hx : f64Val x ≠ 0) (hy : f64Val y ≠ 0) :
    (f64Neg x != f64Neg y) = decide (f64Val x * f64Val y < 0) := by
  rw [f64Neg_eq_decide hx, f64Neg_eq_decide hy]
  rcases hx.lt_or_gt with hx | hx <;> rcases hy.lt_or_gt with hy | hy <;>
    simp [mul_neg_iff, hx, hy, hx.not_gt, hy.not_gt]

section
variable {x y : Binary64} (hx : f64Finite x = true) (hy : f64Finite y = true)
include hx hy

theorem fmul_of_finite : fmul x y = flSigned (f64Neg x != f64Neg y) |f64Val x * f64Val y| := by
  simp [fmul, f64NaN_of_finite, f64Inf_of_finite, hx, hy, abs_mul, abs_f64Val]

theorem fdiv_of_finite (h0 : f64Val y ≠ 0) :
    fdiv x y = flSigned (f64Neg x != f64Neg y) |f64Val x / f64Val y| := by
  simp [fdiv, f64NaN_of_finite, f64Inf_of_finite, hx, hy, h0, abs_div, abs_f64Val]

theorem fadd_of_finite : fadd x y = if f64Val x + f64Val y = 0 then f64Pack (f64Neg x && f64Neg y) 0
    else fl (f64Val x + f64Val y) := by
  simp [fadd, f64NaN_of_finite, f64Inf_of_finite, hx, hy]

theorem fsub_of_finite : fsub x y = if f64Val x - f64Val y = 0 then f64Pack (f64Neg x && !f64Neg y) 0
    else fl (f64Val x - f64Val y) := by
  rw [fsub, fadd_of_finite hx (by simpa using hy), f64Val_fneg, f64Neg_fneg, sub_eq_add_neg]

theorem fmul_eq_fl (h : f64Val x * f64Val y ≠ 0) : fmul x y = fl (f64Val x * f64Val y) := by
  rw [fmul_of_finite hx hy, bne_f64Neg_eq (left_ne_zero_of_mul h) (right_ne_zero_of_mul h), flSigned_abs]

theorem fdiv_eq_fl (h0 : f64Val x ≠ 0) (h : f64Val y ≠ 0) : fdiv x y = fl (f64Val x / f64Val y) := by
  have hsign : f64Val x * f64Val y < 0 ↔ f64Val x / f64Val y < 0 := by rw [mul_neg_iff, div_neg_iff]
  rw [fdiv_of_finite hx hy h, bne_f64Neg_eq h0 h, decide_eq_decide.2 hsign, flSigned_abs]

end

end Sys2Proof.Machine
end

section
/-! PROOF. The obligations of 00_scope.md R13. -/

namespace Sys2Proof.Machine

/-- Settles O46: `fl` answers the word of the last place and the nearest whole number of last places. -/
theorem roundingIsToNearestEven : Obligations.RoundingIsToNearestEven := rounds_fl

/-- Settles O47: on finite words each operation rounds the exact result, and a zero result is a zero word. -/
theorem productAndSumRoundOnce : Obligations.ProductAndSumRoundOnce := by
  intro x y hx hy
  refine ⟨fmul_eq_fl hx hy, fun h h0 => fdiv_eq_fl hx hy h0 h, fun h => ?_, fun h => ?_, fun h => ?_,
    fun h0 h => ?_, fun h => ?_, fun h => ?_⟩
  · rw [fadd_of_finite hx hy, if_neg h]
  · rw [fsub_of_finite hx hy, if_neg h]
  · rw [fmul_of_finite hx hy, h, abs_zero, f64Val_flSigned_zero]
  · rw [fdiv_of_finite hx hy h, h0, zero_div, abs_zero, f64Val_flSigned_zero]
  · rw [fadd_of_finite hx hy, if_pos h, f64Val_f64Pack_zero]
  · rw [fsub_of_finite hx hy, if_pos h, f64Val_f64Pack_zero]

end Sys2Proof.Machine
end

section
/-! SUPPORT. Everything one instruction can do, by kind of effect, and what a step is made of (10_state.md R21,
60_exceptions.md R233): the obligations about what a step writes are case splits over these kinds. -/

namespace Sys2Proof.Machine

/-- What executing an instruction in `s` can lead to, and when. -/
inductive Effect (s : State) : Instr → State → Prop
  /-- RESET (43_control.md R210). -/
  | restart : Effect s .reset (s.restart.respond fun r => { r with err := false })
  /-- A command that drives RES and writes no element of the engine's state. -/
  | answer {i : Instr} (d : Res → Res) (hreset : i ≠ .reset) (hnotify : ∀ n, i ≠ .notify n) : Effect s i (s.respond d)
  /-- WRBUF outside the window (60_exceptions.md R235). -/
  | windowRange (k : BitVec 6) (v : Byte) (hk : s.fill.windowLen ≤ k.toNat) :
      Effect s (.wrbuf k v) (s.raise (.windowRange k))
  /-- WRBUF inside the window (40_frame_buffer.md R105). -/
  | write (k : BitVec 6) (v : Byte) (hk : k.toNat < s.fill.windowLen) : Effect s (.wrbuf k v)
      ((s.setFill (s.fill.write (s.fill.tail.toNat + k.toNat) v)).respond fun r => { r with err := false })
  /-- NOTIFY of more bytes than the window holds (60_exceptions.md R236). -/
  | countRange (n : BitVec 6) (hn : s.fill.windowLen < n.toNat) : Effect s (.notify n) (s.raise (.countRange n))
  /-- NOTIFY without a verified frame (41_decoder.md R142). -/
  | unverified (n : BitVec 6) (hn : n.toNat ≤ s.fill.windowLen)
      (hv : (s.fill.verify n.toNat s.draws).2 = false) : Effect s (.notify n) (s.verified n).solveNothing
  /-- NOTIFY with a verified frame inside the interval (R146). -/
  | gated (n : BitVec 6) (hn : n.toNat ≤ s.fill.windowLen) (hv : (s.fill.verify n.toNat s.draws).2 = true)
      (hg : (s.verified n).swap.latch.gateOpen = false) :
      Effect s (.notify n) (s.verified n).swap.latch.solveNothing
  /-- NOTIFY with a verified frame that emits (R147, R148). -/
  | emit (n : BitVec 6) (hn : n.toNat ≤ s.fill.windowLen) (hv : (s.fill.verify n.toNat s.draws).2 = true)
      (hg : (s.verified n).swap.latch.gateOpen = true) :
      Effect s (.notify n) (s.verified n).swap.latch.emit.solve

/-- An instruction's next state is one of its effects. -/
theorem effect_of_exec {i : Instr} {s t : State} (h : exec i s = .next t) : Effect s i t := by
  cases i with
  | reset => cases h; exact .restart
  | getbuf => cases h; exact .answer _ nofun nofun
  | transform => cases h; exact .answer _ nofun nofun
  | fromenu => cases h; exact .answer _ nofun nofun
  | rdstat => cases h; exact .answer _ nofun nofun
  | wrbuf k v =>
    obtain ⟨hk, he⟩ | ⟨hk, he⟩ := exec_wrbuf_cases k v s <;> cases he.symm.trans h
    · exact .windowRange k v hk
    · exact .write k v hk
  | notify n =>
    obtain ⟨hn, he⟩ | ⟨hn, hv, he⟩ | ⟨hn, hv, hg, he⟩ | ⟨hn, hv, hg, he⟩ := exec_notify_cases n s <;>
      cases he.symm.trans h
    · exact .countRange n hn
    · exact .unverified n hn hv
    · exact .gated n hn hv hg
    · exact .emit n hn hv hg

/-- A step with a next state is idle, an effect of the oldest command, or ILLEGAL_CMD for it. -/
theorem step_next_cases {s t : State} (h : step s = .next t) :
    (s.port = [] ∧ t = s) ∨
    (∃ c rest i, s.port = c :: rest ∧ decode c.word = .legal i ∧ Effect (s.accept c rest) i t) ∨
    (∃ c rest why, s.port = c :: rest ∧ decode c.word = .illegal why ∧ t = (s.accept c rest).raise .illegalCmd) := by
  obtain ⟨hp, he⟩ | ⟨c, rest, i, hp, hd, he⟩ | ⟨c, rest, why, hp, hd, he⟩ := step_cases s <;> rw [he] at h
  · cases h; exact .inl ⟨hp, rfl⟩
  · exact .inr (.inl ⟨c, rest, i, hp, hd, effect_of_exec h⟩)
  · cases h; exact .inr (.inr ⟨c, rest, why, hp, hd, rfl⟩)

/-- RESET apart, no instruction clears an error flag (10_state.md R30). -/
theorem Effect.errorFlags_sticky {i : Instr} {s t : State} (h : Effect s i t) (hi : i ≠ .reset) :
    (s.errIllegal = true → t.errIllegal = true) ∧ (s.errWindow = true → t.errWindow = true) ∧
    (s.errCount = true → t.errCount = true) := by
  cases h with
  | restart => exact absurd rfl hi
  | _ => simp +contextual

/-- LATCH keeps PSS, or the current frame has the tag 32 and PSS is its extra region, low byte first
(41_decoder.md R144; log 12). -/
theorem latch_pss_cases (s : State) :
    s.latch.pss = s.pss ∨ (s.cur.byte 56 = 32#8 ∧
      s.latch.pss = ⟨s.cur.byte 47 ++ s.cur.byte 46, s.cur.byte 49 ++ s.cur.byte 48, s.cur.byte 51 ++ s.cur.byte 50⟩) := by
  by_cases htag : s.tagByte = tagState
  · exact .inr ⟨htag, by rw [State.latch_pss, if_pos htag]; rfl⟩
  · exact .inl (by rw [State.latch_pss, if_neg htag])

/-- PSS is kept, cleared by RESET, or latched from the frame a NOTIFY made current. -/
theorem Effect.pss_cases {i : Instr} {s t : State} (h : Effect s i t) :
    t.pss = s.pss ∨ (i = .reset ∧ t.pss = ⟨0#16, 0#16, 0#16⟩) ∨
    (∃ n, i = .notify n ∧ t.which = s.which.other ∧ t.cur.byte 56 = 32#8 ∧
      t.pss = ⟨t.cur.byte 47 ++ t.cur.byte 46, t.cur.byte 49 ++ t.cur.byte 48, t.cur.byte 51 ++ t.cur.byte 50⟩) := by
  cases h with
  | restart => exact .inr (.inl ⟨rfl, rfl⟩)
  | gated n | emit n =>
    refine (latch_pss_cases (s.verified n).swap).imp (fun hp => ?_) fun hp => .inr ⟨n, rfl, ?_⟩
    · simpa using hp
    · simpa using hp
  | _ => exact .inl (by simp)

/-- An emission drives Uninitialized or Data (30_encoding.md R83). -/
theorem solve_kind_cases (s : State) : s.solve.res.err = false ∧ (s.solve.res.kind = 1#2 ∨ s.solve.res.kind = 2#2) := by
  unfold State.solve
  split <;> simp

/-- LAST_EMIT and LAST_VALID are kept, cleared by RESET, or set by an emission (10_state.md R29). -/
theorem Effect.emission_cases {i : Instr} {s t : State} (h : Effect s i t) :
    (t.lastEmit = s.lastEmit ∧ t.lastValid = s.lastValid) ∨
    (i = .reset ∧ t.lastEmit = 0#64 ∧ t.lastValid = false) ∨
    (∃ n, i = .notify n ∧ t.res.err = false ∧ (t.res.kind = 1#2 ∨ t.res.kind = 2#2) ∧
      t.lastEmit = s.arg.now ∧ t.lastValid = true) := by
  cases h with
  | restart => exact .inr (.inl ⟨rfl, rfl, rfl⟩)
  | emit n =>
    obtain ⟨herr, hkind⟩ := solve_kind_cases (s.verified n).swap.latch.emit
    exact .inr (.inr ⟨n, rfl, herr, hkind, by simp, by simp⟩)
  | _ => exact .inl (by simp)

/-- A NOTIFY that answers neither an error nor Nothing has emitted (41_decoder.md R147). -/
theorem Effect.emitted_of_kind {n : BitVec 6} {s t : State} (h : Effect s (.notify n) t) (herr : t.res.err = false)
    (hkind : t.res.kind ≠ 0#2) : t.lastEmit = s.arg.now ∧ t.lastValid = true := by
  cases h with
  | answer d _ hnotify => exact absurd rfl (hnotify n)
  | countRange => simp at herr
  | unverified | gated => exact absurd rfl hkind
  | emit => simp

/-- RESET apart, an instruction keeps the current buffer, or it is a NOTIFY and WHICH flips (10_state.md R33). -/
theorem Effect.cur_cases {i : Instr} {s t : State} (h : Effect s i t) (hi : i ≠ .reset) :
    (t.which = s.which ∧ t.cur = s.cur) ∨ (t.which = s.which.other ∧ ∃ n, i = .notify n) := by
  cases h with
  | restart => exact absurd rfl hi
  | gated n | emit n => exact .inr ⟨by simp, n, rfl⟩
  | _ => exact .inl (by simp)

end Sys2Proof.Machine
end

section
/-! SUPPORT. The data of a frame buffer is sound and its bytes start with the header after every operation on it
(10_state.md R27, R32). -/

namespace Sys2Proof.Machine

theorem blank_sound (stamp : Nat) : (FrameBuffer.blank stamp).Sound :=
  ⟨blank_wf stamp, fun i h => by simp [FrameBuffer.isDef, FrameBuffer.blank] at h⟩

theorem write_sound {f : FrameBuffer} (hf : f.Sound) {i : Nat} (hi : i < 63) (v : Byte) : (f.write i v).Sound := by
  obtain ⟨hwf, hdef⟩ := hf
  refine ⟨frameWrite_wf hwf hi v, fun j hj => ?_⟩
  rw [isDef_write f i j v hi, Bool.or_eq_true, decide_eq_true_eq] at hj
  rw [FrameBuffer.write, read_write]
  split
  · rfl
  · next hne => exact hdef j (hj.resolve_right hne)

/-- The bytes a SHIFT moves are listed, and no other byte stays defined (40_frame_buffer.md R111). -/
theorem shift_sound {f : FrameBuffer} (hf : f.Sound) (p : Nat) {e : Nat} (he : e ≤ 63) (draw : Nat) :
    (f.shift p e draw).Sound := by
  refine ⟨shift_wf hf.1 p he draw, fun j hj => ?_⟩
  by_cases hp : p = 0
  · subst hp
    exact hf.2 j hj
  · rw [isDef_shift f p e draw j hp he, Bool.and_eq_true, decide_eq_true_eq] at hj
    obtain ⟨hlt, -⟩ := hj
    simp only [FrameBuffer.shift, if_neg hp]
    rw [read_listing (fun k => f.byte (p + k)), if_pos (by omega)]
    rfl

theorem discard_sound {f : FrameBuffer} (hf : f.Sound) (lo e draw : Nat) : (f.discard lo e draw).Sound := by
  rcases lt_or_ge lo e with hlt | hge
  · exact ⟨discard_wf hf.1 lo e draw, fun j hj => by simp [isDef_discard f lo e draw j hlt] at hj⟩
  · rwa [discard_empty f lo e draw hge]

theorem resync_sound {f : FrameBuffer} (hf : f.Sound) (lo : Nat) {e : Nat} (he : e ≤ 63) (draw : Nat) :
    (f.resync lo e draw).1.Sound := by
  obtain ⟨p, -, hr⟩ | ⟨-, hr⟩ := resync_cases f lo e draw <;> rw [hr]
  · exact shift_sound hf p he draw
  · exact discard_sound hf lo e draw

/-- What a RESYNC keeps starts with the header (30_encoding.md R72). -/
theorem resync_headerMatches (f : FrameBuffer) (lo e draw : Nat) :
    HeaderMatches (f.resync lo e draw).1 0 (f.resync lo e draw).2 := by
  obtain ⟨p, hp, hr⟩ | ⟨-, hr⟩ := resync_cases f lo e draw <;> rw [hr] <;> intro k hk hlen
  · obtain ⟨-, -, hmatch, -⟩ := findHeader_some.1 hp
    rw [Nat.zero_add] at hlen ⊢
    rw [byte_shift f p e draw k hlen]
    exact (headerAt_iff f p e).1 hmatch k hk (by omega)
  · exact absurd hlen (Nat.not_lt_zero _)

theorem holdsHeader_setTail {f : FrameBuffer} {len : Nat} (hlen : len ≤ 63) (h : HeaderMatches f 0 len) :
    (f.setTail len).HoldsHeader := by
  intro k hk htail
  have hmod : (f.setTail len).tail.toNat = len := Nat.mod_eq_of_lt (by omega)
  simpa using h k hk (by omega)

/-- Step 1 of VERIFY: a rescan finds the header, and from TAIL 3 on it is confirmed (40_frame_buffer.md R115). -/
theorem assemble_headerMatches {f : FrameBuffer} (n draw : Nat) (hf : f.HoldsHeader) :
    HeaderMatches (f.assemble n draw).1 0 (f.assemble n draw).2 := by
  unfold FrameBuffer.assemble
  split
  · exact resync_headerMatches f 0 _ draw
  · next htail =>
    intro k hk _
    rw [Nat.zero_add]
    exact hf k hk (by omega)

section
variable {f : FrameBuffer} {n : Nat} (hn : n ≤ f.windowLen) (draw : Nat)
include hn

theorem assemble_le : (f.assemble n draw).2 ≤ 63 := by
  have hle := resync_le f 0 (f.tail.toNat + n) draw
  rw [windowLen_eq] at hn
  unfold FrameBuffer.assemble
  split <;> dsimp only <;> omega

theorem assemble_sound (hf : f.Sound) : (f.assemble n draw).1.Sound := by
  rw [windowLen_eq] at hn
  unfold FrameBuffer.assemble
  split
  · exact resync_sound hf 0 (by omega) draw
  · exact hf

/-- VERIFY leaves a sound buffer that starts with the header, and one filled to 63 passes FRAME_OK (R115). -/
theorem verify_spec (hf : f.Sound) (hh : f.HoldsHeader) :
    ∃ g len, f.verify n draw = (g.setTail len, len == 63) ∧ g.Sound ∧ len ≤ 63 ∧ HeaderMatches g 0 len ∧
      (len = 63 → g.frameOk = true) := by
  have hsound := assemble_sound hn draw hf
  obtain ⟨-, -, hv⟩ | ⟨hok, hv⟩ := verify_cases f n draw
  · have hlt : ((f.assemble n draw).1.resync 3 63 draw).2 ≤ 60 := resync_le _ 3 63 draw
    have hne : ((f.assemble n draw).1.resync 3 63 draw).2 ≠ 63 := by omega
    exact ⟨_, _, by rw [hv, beq_false_of_ne hne], resync_sound hsound 3 le_rfl draw, by omega,
      resync_headerMatches _ 3 63 draw, fun h => absurd h hne⟩
  · exact ⟨_, _, hv, hsound, assemble_le hn draw, assemble_headerMatches n draw hh, fun h => hok.resolve_left (· h)⟩

end

end Sys2Proof.Machine
end

section
/-! SUPPORT. The engine's invariant as one condition on the filling buffer and one on the current buffer
(10_state.md R26, R27, R33), each kept by every operation that writes such a buffer. -/

namespace Sys2Proof.Machine

/-- The invariant's part about the filling buffer (R26, R27). -/
structure FrameBuffer.FillingOk (f : FrameBuffer) : Prop where
  sound : f.Sound
  notFull : f.tail.toNat ≤ 62
  header : f.HoldsHeader

/-- The invariant's part about the current buffer, with LAST_VALID given (R33). -/
structure FrameBuffer.CurrentOk (lastValid : Bool) (f : FrameBuffer) : Prop where
  sound : f.Sound
  fresh : lastValid = false → f.tail = 0#6
  frame : lastValid = true → f.tail = 63#6 ∧ f.frameOk = true ∧ f.HoldsHeader

theorem sound_bufs_iff (s : State) : s.bufA.Sound ∧ s.bufB.Sound ↔ s.fill.Sound ∧ s.cur.Sound := by
  cases h : s.which <;> simp [State.fill, State.cur, State.buf, BufId.other, h, and_comm]

theorem inv_iff (s : State) :
    s.Inv ↔ s.fill.FillingOk ∧ s.cur.CurrentOk s.lastValid ∧ s.ref = Config.refDefault := by
  constructor
  · rintro ⟨soundA, soundB, notFull, header, fresh, frame, refFixed⟩
    obtain ⟨soundFill, soundCur⟩ := (sound_bufs_iff s).1 ⟨soundA, soundB⟩
    exact ⟨⟨soundFill, notFull, header⟩, ⟨soundCur, fresh, frame⟩, refFixed⟩
  · rintro ⟨⟨soundFill, notFull, header⟩, ⟨soundCur, fresh, frame⟩, refFixed⟩
    obtain ⟨soundA, soundB⟩ := (sound_bufs_iff s).2 ⟨soundFill, soundCur⟩
    exact ⟨soundA, soundB, notFull, header, fresh, frame, refFixed⟩

theorem blank_fillingOk (stamp : Nat) : (FrameBuffer.blank stamp).FillingOk :=
  ⟨blank_sound stamp, Nat.zero_le 62, fun k _ h => absurd h (Nat.not_lt_zero k)⟩

theorem blank_currentOk (stamp : Nat) : (FrameBuffer.blank stamp).CurrentOk false :=
  ⟨blank_sound stamp, fun _ => rfl, nofun⟩

/-- A WRBUF inside the window writes no byte of the header, since it writes from TAIL on (40_frame_buffer.md R105). -/
theorem write_fillingOk {f : FrameBuffer} (hf : f.FillingOk) {k : Nat} (hk : k < f.windowLen) (v : Byte) :
    (f.write (f.tail.toNat + k) v).FillingOk := by
  obtain ⟨hsound, hfull, hheader⟩ := hf
  rw [windowLen_eq] at hk
  refine ⟨write_sound hsound (by omega) v, hfull, fun j hj htail => ?_⟩
  rw [tail_write] at htail
  rw [byte_write, if_neg (by omega)]
  exact hheader j hj htail

section
variable {f : FrameBuffer} {n : Nat} {draw : Nat} (hf : f.FillingOk) (hn : n ≤ f.windowLen)
include hf hn

theorem verify_fillingOk (hv : (f.verify n draw).2 = false) : (f.verify n draw).1.FillingOk := by
  obtain ⟨g, len, heq, hsound, hlen, hheader, -⟩ := verify_spec hn draw hf.sound hf.header
  rw [heq] at hv ⊢
  have hne : len ≠ 63 := beq_eq_false_iff_ne.1 hv
  refine ⟨hsound, ?_, holdsHeader_setTail hlen hheader⟩
  have hmod : (g.setTail len).tail.toNat = len := Nat.mod_eq_of_lt (by omega)
  show (g.setTail len).tail.toNat ≤ 62
  omega

/-- A frame VERIFY accepts is what the current buffer holds once something was emitted (R33). -/
theorem verify_currentOk (hv : (f.verify n draw).2 = true) : (f.verify n draw).1.CurrentOk true := by
  obtain ⟨g, len, heq, hsound, hlen, hheader, hok⟩ := verify_spec hn draw hf.sound hf.header
  rw [heq] at hv ⊢
  obtain rfl : len = 63 := beq_iff_eq.1 hv
  exact ⟨hsound, nofun, fun _ => ⟨rfl, hok rfl, holdsHeader_setTail hlen hheader⟩⟩

end

/-- The gate holds back no frame before the first emission (41_decoder.md R146). -/
theorem lastValid_of_gate_closed {s : State} (h : s.gateOpen = false) : s.lastValid = true := by
  simp only [State.gateOpen, gate, Bool.or_eq_false_iff, Bool.not_eq_false'] at h
  exact h.1

/-- The invariant speaks neither of the port nor of the operand bus. -/
theorem State.Inv.accept {s : State} (hs : s.Inv) (c : Command) (rest : List Command) : (s.accept c rest).Inv :=
  (inv_iff _).2 ((inv_iff s).1 hs)

/-- The invariant speaks neither of the error flags nor of the record. -/
theorem State.Inv.raise {s : State} (hs : s.Inv) (e : CommandError) : (s.raise e).Inv :=
  (inv_iff _).2 ((inv_iff s).1 hs)

/-- Every effect of an instruction keeps the invariant. -/
theorem Effect.inv {i : Instr} {s t : State} (h : Effect s i t) (hs : s.Inv) : t.Inv := by
  obtain ⟨hfill, hcur, href⟩ := (inv_iff s).1 hs
  rw [inv_iff]
  cases h with
  | restart => exact ⟨blank_fillingOk _, blank_currentOk _, rfl⟩
  | answer | windowRange | countRange => exact ⟨hfill, hcur, href⟩
  | write k v hk => simpa using ⟨write_fillingOk hfill hk v, hcur, href⟩
  | unverified n hn hv => simpa using ⟨verify_fillingOk hfill hn hv, hcur, href⟩
  | gated n hn hv hg =>
    have hvalid : s.lastValid = true := lastValid_of_gate_closed hg
    simpa [hvalid] using ⟨blank_fillingOk s.draws, verify_currentOk hfill hn hv, href⟩
  | emit n hn hv hg => simpa using ⟨blank_fillingOk s.draws, verify_currentOk hfill hn hv, href⟩

end Sys2Proof.Machine
end

section
/-! PROOF. The obligations of 10_state.md. -/

namespace Sys2Proof.Machine

/-- Settles O43: the invariant is one condition per buffer role, and every effect keeps both. -/
theorem stepKeepsTheInvariant : Obligations.StepKeepsTheInvariant := by
  intro s t hs h
  obtain ⟨-, rfl⟩ | ⟨c, rest, i, -, -, he⟩ | ⟨c, rest, why, -, -, rfl⟩ := step_next_cases h
  · exact hs
  · exact he.inv (hs.accept c rest)
  · exact (hs.accept c rest).raise .illegalCmd

/-- Settles O36: no effect but RESET's clears a flag, and an illegal word only sets one. -/
theorem errorFlagsAreSticky : Obligations.ErrorFlagsAreSticky := by
  intro s t h hreset
  obtain ⟨-, rfl⟩ | ⟨c, rest, i, hp, hd, he⟩ | ⟨c, rest, why, -, -, rfl⟩ := step_next_cases h
  · exact ⟨id, id, id⟩
  · exact he.errorFlags_sticky fun hi => hreset c rest hp (hi ▸ hd)
  · simp +contextual

/-- Settles O39: of all effects only RESET's and the LATCH of a promoted frame write PSS. -/
theorem pssChangesOnlyByATaggedFrame : Obligations.PssChangesOnlyByATaggedFrame := by
  intro s t h
  obtain ⟨-, rfl⟩ | ⟨c, rest, i, hp, hd, he⟩ | ⟨c, rest, why, -, -, rfl⟩ := step_next_cases h
  · exact .inl rfl
  · obtain hkept | ⟨rfl, hzero⟩ | ⟨n, rfl, hlatch⟩ := he.pss_cases
    · exact .inl hkept
    · exact .inr (.inl ⟨c, rest, hp, hd, hzero⟩)
    · exact .inr (.inr ⟨c, rest, n, hp, hd, hlatch⟩)
  · exact .inl rfl

/-- Settles O40: of all effects only RESET's and an emission write LAST_EMIT and LAST_VALID, and a NOTIFY that does
not emit answers an error or Nothing. -/
theorem emissionTimeChangesOnlyByEmission : Obligations.EmissionTimeChangesOnlyByEmission := by
  intro s t h
  obtain ⟨hp, rfl⟩ | ⟨c, rest, i, hp, hd, he⟩ | ⟨c, rest, why, hp, hd, rfl⟩ := step_next_cases h
  · exact ⟨.inl ⟨rfl, rfl⟩, by simp [hp]⟩
  · refine ⟨?_, fun c' rest' n hp' hd' herr hkind => ?_⟩
    · obtain hkept | ⟨rfl, hclear⟩ | ⟨n, rfl, hemit⟩ := he.emission_cases
      · exact .inl hkept
      · exact .inr (.inl ⟨c, rest, hp, hd, hclear⟩)
      · exact .inr (.inr ⟨c, rest, n, hp, hd, hemit⟩)
    · cases hp.symm.trans hp'
      cases hd.symm.trans hd'
      exact he.emitted_of_kind herr hkind
  · exact ⟨.inl ⟨rfl, rfl⟩, fun _ _ _ _ _ herr => by simp at herr⟩

/-- Settles O41: the effects that write a buffer write the filling one, but for the two that flip WHICH. -/
theorem currentBufferChangesOnlyByASwap : Obligations.CurrentBufferChangesOnlyByASwap := by
  intro s t h hreset
  obtain ⟨-, rfl⟩ | ⟨c, rest, i, hp, hd, he⟩ | ⟨c, rest, why, -, -, rfl⟩ := step_next_cases h
  · exact .inl ⟨rfl, rfl⟩
  · obtain hkept | ⟨hflip, n, rfl⟩ := he.cur_cases fun hi => hreset c rest hp (hi ▸ hd)
    · exact .inl hkept
    · exact .inr ⟨hflip, c, rest, n, hp, hd⟩
  · exact .inl ⟨rfl, rfl⟩

/-- Settles O1: `State.accept` is the state with the port moved on and the operand bus sampled. -/
theorem stepRunsTheDecodedCommand : Obligations.StepRunsTheDecodedCommand := by
  intro s c rest i hp hd
  simp only [step, hp, hd, State.accept]

/-- Settles O42: both buffers are blank at reset. -/
theorem invariantAtReset : Obligations.InvariantAtReset :=
  (inv_iff State.reset).2 ⟨blank_fillingOk 1, blank_currentOk 0, rfl⟩

end Sys2Proof.Machine
end

section
/-! SUPPORT. A command error raised again, and the filling buffer written again at the same offset
(60_exceptions.md R233, 40_frame_buffer.md R105). -/

namespace Sys2Proof.Machine

/-- Of two writes at one offset only the later one stays, listed or not before. -/
theorem memory_write_write (m : Memory) (i : Nat) (v v' : Byte) : (m.write i v).write i v' = m.write i v' := by
  induction m with
  | nil => simp [Memory.write]
  | cons c m ih =>
    rcases lt_trichotomy i c.1 with hlt | heq | hgt
    · simp [Memory.write, hlt]
    · simp [Memory.write, heq]
    · simp [Memory.write, hgt.not_gt, hgt.ne', ih]

/-- The second write finds its DEF bit set already. -/
@[simp] theorem write_write (f : FrameBuffer) (i : Nat) (v v' : Byte) : (f.write i v).write i v' = f.write i v' := by
  simp [FrameBuffer.write, memory_write_write, BitVec.or_assoc]

@[simp] theorem windowLen_write (f : FrameBuffer) (i : Nat) (v : Byte) : (f.write i v).windowLen = f.windowLen := rfl

@[simp] theorem setFill_setFill (s : State) (f g : FrameBuffer) : (s.setFill f).setFill g = s.setFill g := by
  cases h : s.which <;> simp [State.setFill, State.setBuf, BufId.other, h]

@[simp] theorem setFill_respond (s : State) (f : FrameBuffer) (d : Res → Res) :
    (s.respond d).setFill f = (s.setFill f).respond d := rfl

/-- An error raised again is recorded again and answered again, and its flag is set already. -/
theorem raise_raise (s : State) (e : CommandError) :
    (s.raise e).raise e = ((s.raise e).note (.error e)).respond fun r => { r with err := true } := by
  simp [State.raise, State.note, State.respond]

section
variable {s : State} {i : BitVec 6} (v : Byte)

theorem exec_wrbuf_beyond (h : s.fill.windowLen ≤ i.toNat) :
    exec (.wrbuf i v) s = .next (s.raise (.windowRange i)) := by
  obtain ⟨-, he⟩ | ⟨hin, -⟩ := exec_wrbuf_cases i v s
  · exact he
  · exact absurd h hin.not_ge

theorem exec_wrbuf_inside (h : i.toNat < s.fill.windowLen) : exec (.wrbuf i v) s =
    .next ((s.setFill (s.fill.write (s.fill.tail.toNat + i.toNat) v)).respond fun r => { r with err := false }) := by
  obtain ⟨hout, -⟩ | ⟨-, he⟩ := exec_wrbuf_cases i v s
  · exact absurd h hout.not_gt
  · exact he

/-- After a WRBUF to a window offset, a second one there does what it would do without the first, but for one more
answer (R105). -/
theorem exec_wrbuf_after_wrbuf {v v' : Byte} {t w : State} (h : i.toNat < s.fill.windowLen)
    (ht : exec (.wrbuf i v) s = .next t) (hw : exec (.wrbuf i v') s = .next w) :
    exec (.wrbuf i v') t = .next (w.respond fun r => { r with err := false }) := by
  cases (exec_wrbuf_inside v h).symm.trans ht
  cases (exec_wrbuf_inside v' h).symm.trans hw
  rw [exec_wrbuf_inside v' (by simpa using h)]
  simp

end

end Sys2Proof.Machine
end

section
/-! PROOF. The obligation of 20_memory.md. -/

namespace Sys2Proof.Machine

/-- Settles O12: a first WRBUF moves no window, so the second goes the same way; inside the window it only answers
once more, beyond it the same error is raised again. -/
theorem wrbufIsIdempotent : Obligations.WrbufIsIdempotent := by
  intro s t u i v ht hu
  rw [← windowLen_eq]
  rcases le_or_gt s.fill.windowLen i.toNat with hout | hin
  · cases (exec_wrbuf_beyond v hout).symm.trans ht
    have he : exec (.wrbuf i v) (s.raise (.windowRange i)) = .next ((s.raise (.windowRange i)).raise (.windowRange i)) :=
      exec_wrbuf_beyond v hout
    rw [raise_raise] at he
    cases he.symm.trans hu
    exact ⟨fun hin => absurd hin hout.not_gt, fun _ => ⟨rfl, rfl⟩⟩
  · cases (exec_wrbuf_after_wrbuf hin ht ht).symm.trans hu
    exact ⟨fun _ => ⟨rfl, rfl⟩, fun hout => absurd hin hout.not_gt⟩

end Sys2Proof.Machine
end

section
/-! SUPPORT. The fields of a command word as numbers and under a mask, and which words are a given instruction's
(30_encoding.md R78, R81, R82). -/

namespace Sys2Proof

theorem toNat_opField (w : CmdWord) : (opField w).toNat = w.toNat / 2 ^ 28 := by
  have := w.isLt
  rw [opField, BitVec.extractLsb'_toNat, Nat.shiftRight_eq_div_pow]
  omega

theorem toNat_rsvField (w : CmdWord) : (rsvField w).toNat = w.toNat / 2 ^ 14 % 2 ^ 14 := by
  rw [rsvField, BitVec.extractLsb'_toNat, Nat.shiftRight_eq_div_pow]

theorem toNat_idxField (w : CmdWord) : (idxField w).toNat = w.toNat / 2 ^ 8 % 2 ^ 6 := by
  rw [idxField, BitVec.extractLsb'_toNat, Nat.shiftRight_eq_div_pow]

theorem toNat_dataField (w : CmdWord) : (dataField w).toNat = w.toNat % 2 ^ 8 := by
  rw [dataField, BitVec.extractLsb'_toNat, Nat.shiftRight_zero]

theorem opField_of_toNat {w : CmdWord} {n : Nat} (h : (opField w).toNat = n) : opField w = BitVec.ofNat 4 n := by
  rw [← h, BitVec.ofNat_toNat, BitVec.setWidth_eq]

/-- The illegal words, in terms of the fields the decoder reads (R82). -/
theorem isIllegalWord_iff_fields (h : Bool) (w : CmdWord) : Machine.IsIllegalWord h w ↔
    (opField w).toNat = 0 ∨ 8 ≤ (opField w).toNat ∨ rsvField w ≠ 0 ∨
    (idxField w ≠ 0 ∧ (opField w).toNat ≠ 3 ∧ (opField w).toNat ≠ 4) ∨
    (dataField w ≠ 0 ∧ (opField w).toNat ≠ 3) ∨ ((opField w).toNat = 6 ∧ h = false) := by
  simp only [Machine.IsIllegalWord, ← toNat_opField, ← toNat_rsvField, ← toNat_idxField, ← toNat_dataField, ne_eq,
    BitVec.toNat_eq, BitVec.ofNat_eq_ofNat, BitVec.toNat_ofNat, Nat.zero_mod]

/-- What `noData` refuses. -/
theorem noData_illegal {w : CmdWord} {i : Instr} : (∃ why, noData w i = .illegal why) ↔ dataField w ≠ 0 := by
  unfold noData; split <;> simp_all

/-- What `noOperands` refuses. -/
theorem noOperands_illegal {w : CmdWord} {i : Instr} :
    (∃ why, noOperands w i = .illegal why) ↔ idxField w ≠ 0 ∨ dataField w ≠ 0 := by
  unfold noOperands; split <;> simp_all [noData_illegal]

/-- A word is the command word of three field values exactly when it has them, and RSV 0 (R78). -/
theorem commandWord_eq_iff {op : BitVec 4} {idx : BitVec 6} {dat : Byte} {w : CmdWord} :
    commandWord op idx dat = w ↔ rsvField w = 0#14 ∧ opField w = op ∧ idxField w = idx ∧ dataField w = dat := by
  constructor
  · rintro rfl
    simp
  · rintro ⟨hrsv, rfl, rfl, rfl⟩
    exact word_of_fields w hrsv

/-- A field that a mask covers is the field of what the word is under the mask. -/
theorem extractLsb'_of_and {w m r : CmdWord} {start len : Nat} (h : w &&& m = r)
    (hm : m.extractLsb' start len = BitVec.allOnes len) : w.extractLsb' start len = r.extractLsb' start len := by
  rw [← h, BitVec.extractLsb'_and, hm, BitVec.and_allOnes]

theorem and_fullMask_eq_iff {w m : CmdWord} : w &&& 0xFFFFFFFF#32 = m ↔ m = w := by
  rw [show 0xFFFFFFFF#32 = BitVec.allOnes 32 from rfl, BitVec.and_allOnes, eq_comm]

/-- The words of WRBUF: its row of the opcode map with the operands in IDX and DATA (R81). -/
theorem encode_wrbuf_eq_iff {i : BitVec 6} {v : Byte} {w : CmdWord} : encode (.wrbuf i v) = w ↔
    w &&& 0xFFFFC000#32 = 0x30000000#32 ∧ i = idxField w ∧ v = dataField w := by
  constructor
  · rintro rfl
    exact ⟨(Laws.TableRow.wrbuf i v).1, by simp [encode]⟩
  · rintro ⟨hrow, rfl, rfl⟩
    exact commandWord_eq_iff.2 ⟨extractLsb'_of_and hrow (by decide), extractLsb'_of_and hrow (by decide), rfl, rfl⟩

/-- The words of NOTIFY: its row of the opcode map with the operand in IDX (R81). -/
theorem encode_notify_eq_iff {n : BitVec 6} {w : CmdWord} : encode (.notify n) = w ↔
    w &&& 0xFFFFC0FF#32 = 0x40000000#32 ∧ n = idxField w := by
  constructor
  · rintro rfl
    exact ⟨(Laws.TableRow.notify n).1, by simp [encode]⟩
  · rintro ⟨hrow, rfl⟩
    exact commandWord_eq_iff.2 ⟨extractLsb'_of_and hrow (by decide), extractLsb'_of_and hrow (by decide), rfl,
      extractLsb'_of_and hrow (by decide)⟩

end Sys2Proof
end

section
/-! PROOF. The obligations of 30_encoding.md about decoding. -/

namespace Sys2Proof

/-- Settles O6: the encoded word has RSV 0, the instruction's code and its operands, and 0 in the other fields. -/
theorem decodeOfEncode : Obligations.DecodeOfEncode := by
  intro h i hwf
  cases i with
  | fromenu =>
    obtain rfl : h = true := hwf
    simp [encode, decodeWith, noOperands, noData]
  | _ => simp [encode, decodeWith, noOperands, noData]

/-- Settles O7: each row of the decoder pins every field that is no operand of its command. -/
theorem encodeOfDecode : Obligations.EncodeOfDecode := by
  intro h w i hd
  unfold decodeWith at hd
  split at hd
  case isFalse => cases hd
  case isTrue hrsv =>
    split at hd
    case h_1 hop | h_2 hop | h_5 hop | h_7 hop =>
      obtain ⟨hidx, hdat, rfl⟩ := noOperands_legal.1 hd
      exact ⟨commandWord_eq_iff.2 ⟨hrsv, opField_of_toNat hop, hidx, hdat⟩, rfl⟩
    case h_3 hop =>
      cases hd
      exact ⟨commandWord_eq_iff.2 ⟨hrsv, opField_of_toNat hop, rfl, rfl⟩, rfl⟩
    case h_4 hop =>
      obtain ⟨hdat, rfl⟩ := noData_legal.1 hd
      exact ⟨commandWord_eq_iff.2 ⟨hrsv, opField_of_toNat hop, rfl, hdat⟩, rfl⟩
    case h_6 hop =>
      cases h with
      | false => cases hd
      | true =>
        obtain ⟨hidx, hdat, rfl⟩ := noOperands_legal.1 hd
        exact ⟨commandWord_eq_iff.2 ⟨hrsv, opField_of_toNat hop, hidx, hdat⟩, rfl⟩
    case h_8 => cases hd

/-- The decoder is the inverse of the encoder on the instructions that exist (R77). -/
theorem decodeWith_legal_iff {h : Bool} {w : CmdWord} {i : Instr} :
    decodeWith h w = .legal i ↔ encode i = w ∧ i.wfWith h = true :=
  ⟨encodeOfDecode h w i, fun ⟨hw, hwf⟩ => hw ▸ decodeOfEncode h i hwf⟩

/-- Settles O4: the rows of the decoder, one for each code, and the codes that have none. -/
theorem decodeRefusesExactlyIllegalWords : Obligations.DecodeRefusesExactlyIllegalWords := by
  intro h w
  rw [isIllegalWord_iff_fields]
  unfold decodeWith
  split
  case isFalse hrsv => exact iff_of_true ⟨_, rfl⟩ (.inr (.inr (.inl hrsv)))
  case isTrue hrsv =>
    split
    case h_1 hop | h_2 hop | h_5 hop | h_7 hop => simp [hop, hrsv, noOperands_illegal]
    case h_3 hop => simp [hop, hrsv]
    case h_4 hop => simp [hop, hrsv, noData_illegal]
    case h_6 hop => cases h <;> simp [hop, hrsv, noOperands_illegal]
    case h_8 h1 h2 h3 h4 h5 h6 h7 =>
      simp only [imp_false] at h1 h2 h3 h4 h5 h6 h7
      have hcode : (opField w).toNat = 0 ∨ 8 ≤ (opField w).toNat := by omega
      exact iff_of_true ⟨_, rfl⟩ (or_assoc.1 (.inl hcode))

/-- Settles O5: a word decodes to the instruction whose encoded word it is, and the rows of the map say which words
those are. -/
theorem decodingFollowsTheOpcodeMap : Obligations.DecodingFollowsTheOpcodeMap := by
  intro h w
  simp only [decodeWith_legal_iff, and_fullMask_eq_iff]
  exact ⟨and_iff_left rfl, and_iff_left rfl, fun i v => (and_iff_left rfl).trans encode_wrbuf_eq_iff,
    fun n => (and_iff_left rfl).trans encode_notify_eq_iff, and_iff_left rfl, and_comm, and_iff_left rfl⟩

end Sys2Proof
end

section
/-! SUPPORT. What an emission reads (30_encoding.md R70, R75): the used fields of the current frame, PSS, LAST_EMIT,
LAST_VALID, REF and NOW. Two states that agree on these promote their frames alike. -/

namespace Sys2Proof.Machine

theorem solve_st (s : State) : s.solve.res.st = s.pss := by
  unfold State.solve
  split <;> rfl

/-- The frame offsets of yaw, position, status, the extra region and the tag (30_encoding.md R70). -/
def usedOffsets : List Nat :=
  [7, 8, 21, 22, 23, 24, 25, 26, 27, 28, 29, 30, 31, 32, 39, 46, 47, 48, 49, 50, 51, 56]

/-- Two frames whose used fields hold the same bytes. -/
def FrameBuffer.SameUsed (f g : FrameBuffer) : Prop := ∀ a ∈ usedOffsets, f.byte a = g.byte a

/-- Two states that agree on everything LATCH, GATE and the Solution read. -/
structure State.SameInputs (s t : State) : Prop where
  used : s.cur.SameUsed t.cur
  pss : s.pss = t.pss
  lastEmit : s.lastEmit = t.lastEmit
  lastValid : s.lastValid = t.lastValid
  ref : s.ref = t.ref
  now : s.arg.now = t.arg.now

section
variable {s t : State} {o : Nat}

theorem memRead16_congr (h : s.cur.SameUsed t.cur) (ho : ∀ k < 2, o + k ∈ usedOffsets) :
    s.memRead16 o = t.memRead16 o := by
  simp only [State.memRead16, FrameBuffer.field16, h o (ho 0 (by decide)), h (o + 1) (ho 1 (by decide))]

theorem memRead32_congr (h : s.cur.SameUsed t.cur) (ho : ∀ k < 4, o + k ∈ usedOffsets) :
    s.memRead32 o = t.memRead32 o := by
  simp only [State.memRead32, FrameBuffer.field32, h o (ho 0 (by decide)), h (o + 1) (ho 1 (by decide)),
    h (o + 2) (ho 2 (by decide)), h (o + 3) (ho 3 (by decide))]

theorem yaw_congr (h : s.cur.SameUsed t.cur) : s.yaw = t.yaw := by
  simp only [State.yaw, memRead16_congr h (o := 7) (by decide)]

theorem statusByte_congr (h : s.cur.SameUsed t.cur) : s.statusByte = t.statusByte := h 39 (by decide)

theorem tagByte_congr (h : s.cur.SameUsed t.cur) : s.tagByte = t.tagByte := h 56 (by decide)

theorem extra_congr (h : s.cur.SameUsed t.cur) : s.extra = t.extra := by
  simp only [State.extra, memRead16_congr h (o := 46) (by decide), memRead16_congr h (o := 48) (by decide),
    memRead16_congr h (o := 50) (by decide)]

theorem position_congr (h : s.cur.SameUsed t.cur) : s.position = t.position := by
  simp only [State.position, memRead32_congr h (o := 21) (by decide), memRead32_congr h (o := 25) (by decide),
    memRead32_congr h (o := 29) (by decide)]

namespace State.SameInputs

theorem latch (h : s.SameInputs t) : s.latch.SameInputs t.latch :=
  { h with pss := by simp only [latch_pss, tagByte_congr h.used, extra_congr h.used, h.pss] }

theorem emit (h : s.SameInputs t) : s.emit.SameInputs t.emit :=
  { h with lastEmit := h.now, lastValid := rfl }

theorem gateOpen_eq (h : s.SameInputs t) : s.gateOpen = t.gateOpen := by
  simp only [gateOpen, h.lastValid, h.lastEmit, h.now]

/-- The Solution of an emission (30_encoding.md R83). -/
theorem sameSolution_solve (h : s.SameInputs t) : Res.SameSolution s.solve.res t.solve.res := by
  unfold solve
  rw [statusByte_congr h.used, yaw_congr h.used, position_congr h.used, h.ref, h.pss]
  split <;> simp [Res.SameSolution]

/-- The Solution and the state a promotion leaves (41_decoder.md R140). -/
theorem promote (h : s.swap.SameInputs t.swap) : Res.SameSolution s.promote.res t.promote.res ∧
    s.promote.pss = t.promote.pss ∧ s.promote.lastEmit = t.promote.lastEmit ∧
    s.promote.lastValid = t.promote.lastValid := by
  have hl := h.latch
  simp only [State.promote, hl.gateOpen_eq]
  split
  · exact ⟨hl.emit.sameSolution_solve, by simpa using hl.pss, by simpa using hl.now, by simp⟩
  · exact ⟨by simp [Res.SameSolution], hl.pss, hl.lastEmit, hl.lastValid⟩

end State.SameInputs

end

/-- NOTIFY of a verified frame promotes it (41_decoder.md R140). -/
theorem exec_notify_verified {s : State} {n : BitVec 6} (hn : n.toNat ≤ s.fill.windowLen)
    (hv : (s.fill.verify n.toNat s.draws).2 = true) : exec (.notify n) s = .next (s.verified n).promote := by
  obtain ⟨hout, -⟩ | ⟨-, hv', -⟩ | ⟨-, -, hg, he⟩ | ⟨-, -, hg, he⟩ := exec_notify_cases n s
  · exact absurd hn hout.not_ge
  · exact absurd (hv.symm.trans hv') (by decide)
  · simp [he, State.promote, hg]
  · simp [he, State.promote, hg]

end Sys2Proof.Machine
end

section
/-! PROOF. The obligations of 30_encoding.md about the Solution. -/

namespace Sys2Proof.Machine

/-- Settles O30: NOTIFY answers Nothing without an emission, and an emission answers Uninitialized or Data with PSS. -/
theorem kindThreeIsNeverProduced : Obligations.KindThreeIsNeverProduced := by
  intro s t n h herr
  cases effect_of_exec h with
  | answer d _ hnotify => exact absurd rfl (hnotify n)
  | countRange => simp at herr
  | unverified | gated => exact ⟨.inl rfl, fun hkind => absurd rfl hkind⟩
  | emit =>
    obtain ⟨-, hkind⟩ := solve_kind_cases (s.verified n).swap.latch.emit
    exact ⟨.inr hkind, fun _ => by rw [solve_st, State.solve_pss]⟩

/-- Settles O31: after SWAP the two states agree on everything the rest of NOTIFY reads. -/
theorem unusedFieldsDoNotReachTheSolution : Obligations.UnusedFieldsDoNotReachTheSolution := by
  intro s s' t t' n m hn hm hvs hvt hbytes hpss hlast hvalid href hnow hs ht
  cases (exec_notify_verified hn hvs).symm.trans hs
  cases (exec_notify_verified hm hvt).symm.trans ht
  exact State.SameInputs.promote
    { used := by rw [State.cur_swap, State.cur_swap, verified_fill, verified_fill]; exact hbytes
      pss := hpss, lastEmit := hlast, lastValid := hvalid, ref := href, now := hnow }

end Sys2Proof.Machine
end

section
/-! SUPPORT. Runs of host commands put together from their parts (70_reset_and_hazards.md R271). -/

namespace Sys2Proof.Machine

/-- A run is the run of its first commands and then of the others. -/
theorem run_append {cs ds : List Command} {s t u : State} {rs qs : List Res} (hc : run cs s = some (t, rs))
    (hd : run ds t = some (u, qs)) : run (cs ++ ds) s = some (u, rs ++ qs) := by
  induction cs generalizing s rs with
  | nil =>
    cases hc
    exact hd
  | cons c cs ih =>
    simp only [List.cons_append, run] at hc ⊢
    split at hc
    · obtain ⟨⟨t', rs'⟩, hrun, heq⟩ := Option.map_eq_some_iff.1 hc
      cases heq
      rw [ih hrun]
      rfl
    · cases hc

/-- The commands run from `s` to `t`, each with an answer and no error. -/
def RunsClean (cs : List Command) (s t : State) : Prop :=
  ∃ rs, run cs s = some (t, rs) ∧ rs.length = cs.length ∧ ∀ r ∈ rs, r.err = false

namespace RunsClean

theorem nil (s : State) : RunsClean [] s s := ⟨[], rfl, rfl, nofun⟩

theorem append {cs ds : List Command} {s t u : State} (hc : RunsClean cs s t) (hd : RunsClean ds t u) :
    RunsClean (cs ++ ds) s u := by
  obtain ⟨rs, hrun, hlen, herr⟩ := hc
  obtain ⟨qs, hrun', hlen', herr'⟩ := hd
  refine ⟨rs ++ qs, run_append hrun hrun', by simp [hlen, hlen'], fun r hr => ?_⟩
  exact (List.mem_append.1 hr).elim (herr r) (herr' r)

/-- One command, the encoding of an instruction that answers without error (30_encoding.md R77). -/
theorem single {s t : State} {i : Instr} {arg : Arg} (hi : i.wf = true)
    (h : exec i (s.accept ⟨encode i, arg⟩ []) = .next t) (herr : t.res.err = false) :
    RunsClean [⟨encode i, arg⟩] s t := by
  have hd : decode (encode i) = .legal i := decodeOfEncode Config.hasFromEnu i hi
  have hstep : step { s with port := [⟨encode i, arg⟩] } = .next t := by
    simp only [step, hd]
    exact h
  exact ⟨[t.res], by simp [run, hstep], rfl, by simpa using herr⟩

end RunsClean

end Sys2Proof.Machine
end

section
/-! SUPPORT. Bytes written one after another into the filling buffer, and what a FEED's commands do
(30_encoding.md R86, 40_frame_buffer.md R105, 41_decoder.md R141). -/

namespace Sys2Proof.Machine

/-- The buffer with these bytes written from offset `o` on. -/
def FrameBuffer.writeFrom (f : FrameBuffer) (o : Nat) : List Byte → FrameBuffer
  | [] => f
  | v :: bs => (f.write o v).writeFrom (o + 1) bs

@[simp] theorem tail_writeFrom (f : FrameBuffer) (o : Nat) (bs : List Byte) : (f.writeFrom o bs).tail = f.tail := by
  induction bs generalizing f o with
  | nil => rfl
  | cons v bs ih => exact ih _ _

/-- From `o` on the buffer holds the bytes written, as far as they reach, and elsewhere what it held. -/
theorem byte_writeFrom (f : FrameBuffer) (o : Nat) (bs : List Byte) (a : Nat) :
    (f.writeFrom o bs).byte a = if a < o then f.byte a else bs.getD (a - o) (f.byte a) := by
  induction bs generalizing f o with
  | nil => simp [FrameBuffer.writeFrom]
  | cons v bs ih =>
    rw [FrameBuffer.writeFrom, ih, byte_write]
    rcases lt_trichotomy a o with hlt | rfl | hgt
    · simp [hlt, hlt.ne', Nat.lt_succ_of_lt hlt]
    · simp
    · have hsub : a - o = a - (o + 1) + 1 := by omega
      simp [hsub, hgt.ne, hgt.not_gt, hgt]

/-- The DEF bits of the bytes written are set, the others kept. -/
theorem isDef_writeFrom (f : FrameBuffer) {o : Nat} {bs : List Byte} (h : o + bs.length ≤ 63) (a : Nat) :
    (f.writeFrom o bs).isDef a = (f.isDef a || decide (o ≤ a ∧ a < o + bs.length)) := by
  induction bs generalizing f o with
  | nil => simp [FrameBuffer.writeFrom]
  | cons v bs ih =>
    rw [List.length_cons] at h ⊢
    rw [FrameBuffer.writeFrom, ih _ (by omega), isDef_write _ _ _ _ (by omega), Bool.or_assoc]
    congr 1
    rw [← Bool.decide_or, decide_eq_decide]
    omega

/-- `u` differs from `s` in the filling buffer and the interface fields alone. -/
structure State.FillsOnly (s u : State) : Prop where
  frame : u = { s with
    bufA := u.bufA, bufB := u.bufB, port := u.port, arg := u.arg, res := u.res, draws := u.draws }
  cur : u.cur = s.cur

namespace State.FillsOnly

theorem refl (s : State) : s.FillsOnly s := ⟨rfl, rfl⟩

theorem trans {s t u : State} (h : s.FillsOnly t) (h' : t.FillsOnly u) : s.FillsOnly u :=
  ⟨h'.frame.trans (by rw [h.frame]), h'.cur.trans h.cur⟩

theorem accept (s : State) (c : Command) (cs : List Command) : s.FillsOnly (s.accept c cs) := ⟨rfl, rfl⟩

theorem respond (s : State) (d : Res → Res) : s.FillsOnly (s.respond d) := ⟨rfl, rfl⟩

theorem setFill (s : State) (f : FrameBuffer) : s.FillsOnly (s.setFill f) := ⟨rfl, cur_setFill s f⟩

end State.FillsOnly

/-- A GETBUF writes nothing. -/
theorem runsClean_getbuf (s : State) (arg : Arg) :
    ∃ u, RunsClean [⟨encode .getbuf, arg⟩] s u ∧ s.FillsOnly u ∧ u.fill = s.fill :=
  ⟨_, .single rfl rfl rfl, (State.FillsOnly.accept _ _ _).trans (.respond _ _), rfl⟩

/-- A WRBUF inside the window writes its byte (R105). -/
theorem runsClean_wrbuf {s : State} (arg : Arg) {i : BitVec 6} (v : Byte) (h : i.toNat < s.fill.windowLen) :
    ∃ u, RunsClean [⟨encode (.wrbuf i v), arg⟩] s u ∧ s.FillsOnly u ∧
      u.fill = s.fill.write (s.fill.tail.toNat + i.toNat) v :=
  ⟨_, .single rfl (exec_wrbuf_inside v h) rfl,
    (State.FillsOnly.accept _ _ _).trans ((State.FillsOnly.setFill _ _).trans (.respond _ _)), by simp⟩

/-- The WRBUFs of a FEED write its bytes from window offset `i` on, when they fit the window. -/
theorem runsClean_feedWrites (arg : Arg) {i : Nat} {bs : List Byte} {s : State}
    (h : i + bs.length ≤ s.fill.windowLen) : ∃ u, RunsClean (feedWrites arg i bs) s u ∧ s.FillsOnly u ∧
      u.fill = s.fill.writeFrom (s.fill.tail.toNat + i) bs := by
  induction bs generalizing i s with
  | nil => exact ⟨s, .nil s, .refl s, rfl⟩
  | cons v bs ih =>
    rw [List.length_cons, windowLen_eq] at h
    have hi : (BitVec.ofNat 6 i).toNat = i := Nat.mod_eq_of_lt (by omega)
    obtain ⟨t, hrun, honly, hfill⟩ := runsClean_wrbuf (s := s) arg (i := BitVec.ofNat 6 i) v
      (by rw [hi, windowLen_eq]; omega)
    rw [hi] at hfill
    obtain ⟨u, hrun', honly', hfill'⟩ := ih (i := i + 1) (s := t)
      (by rw [hfill, windowLen_write, windowLen_eq]; omega)
    refine ⟨u, hrun.append hrun', honly.trans honly', ?_⟩
    rw [hfill', hfill, tail_write, ← Nat.add_assoc]
    rfl

/-- NOTIFY of bytes in the window raises no error, and records HOST_UNDEF for a byte among them that is not defined
(41_decoder.md R141). -/
theorem exec_notify_inside {s : State} {n : BitVec 6} (hn : n.toNat ≤ s.fill.windowLen) :
    ∃ t, exec (.notify n) s = .next t ∧ t.res.err = false ∧
      t.record = s.record ++ ((s.fill.firstUndef n.toNat).map RecordedFault.hostUndef).toList := by
  obtain ⟨hout, -⟩ | ⟨-, -, he⟩ | ⟨-, -, -, he⟩ | ⟨-, -, -, he⟩ := exec_notify_cases n s
  · exact absurd hn hout.not_ge
  · exact ⟨_, he, rfl, rfl⟩
  · exact ⟨_, he, rfl, rfl⟩
  · exact ⟨_, he, (solve_kind_cases _).1, by simp⟩

theorem firstUndef_eq_none {f : FrameBuffer} {n : Nat} :
    f.firstUndef n = none ↔ ∀ j, f.tail.toNat ≤ j → j < f.tail.toNat + n → f.isDef j = true := by
  simp [FrameBuffer.firstUndef, List.mem_range'_1]

/-- Bytes just written from TAIL on are all defined. -/
theorem firstUndef_writeFrom_tail {f : FrameBuffer} {bs : List Byte} (h : bs.length ≤ f.windowLen) :
    (f.writeFrom f.tail.toNat bs).firstUndef bs.length = none := by
  have htail := f.tail.isLt
  rw [windowLen_eq] at h
  rw [firstUndef_eq_none, tail_writeFrom]
  intro j hlo hhi
  rw [isDef_writeFrom f (by omega)]
  simp [hlo, hhi]

theorem length_feed (arg : Arg) (now : BitVec 64) (bytes : List Byte) :
    (feed arg now bytes).length = bytes.length + 2 := by
  have hwrites : ∀ i, (feedWrites arg i bytes).length = bytes.length := by
    induction bytes with
    | nil => exact fun _ => rfl
    | cons v bs ih => exact fun i => congrArg (· + 1) (ih (i + 1))
  simp [feed, hwrites]

end Sys2Proof.Machine
end

section
/-! PROOF. The obligation of 30_encoding.md about FEED. -/

namespace Sys2Proof.Machine

/-- Settles O54: the WRBUFs leave the bytes in the window, all defined, and NOTIFY finds them there. -/
theorem feedDeliversItsBytes : Obligations.FeedDeliversItsBytes := by
  intro s arg now bytes hfit
  obtain ⟨a, hgetbuf, honly, hfill⟩ := runsClean_getbuf s arg
  obtain ⟨b, hwrites, honly', hfill'⟩ := runsClean_feedWrites arg (i := 0) (bs := bytes) (s := a)
    (by rwa [hfill, windowLen_eq, Nat.zero_add])
  rw [hfill, Nat.add_zero] at hfill'
  have hn : (BitVec.ofNat 6 bytes.length).toNat = bytes.length := Nat.mod_eq_of_lt (by omega)
  let c : Command := ⟨encode (.notify (BitVec.ofNat 6 bytes.length)), { arg with now := now }⟩
  have hu : s.FillsOnly (b.accept c []) := (honly.trans honly').trans (.accept b c [])
  have hfu : (b.accept c []).fill = s.fill.writeFrom s.fill.tail.toNat bytes := hfill'
  obtain ⟨t, hexec, herr, hrecord⟩ := exec_notify_inside (s := b.accept c [])
    (n := BitVec.ofNat 6 bytes.length) (by rwa [hfu, hn, windowLen_eq, tail_writeFrom])
  rw [hfu, hn, firstUndef_writeFrom_tail hfit, congrArg State.record hu.frame] at hrecord
  obtain ⟨rs, hrun, hlen, hclean⟩ := hgetbuf.append (hwrites.append (.single rfl hexec herr))
  refine ⟨b.accept c [], t, rs, hrun, hlen.trans (length_feed arg now bytes), hclean, hexec, by simpa using hrecord,
    rfl, hu.frame, hu.cur, ?_, ?_, ?_⟩ <;> rw [hfu]
  · exact tail_writeFrom _ _ _
  · intro j hj
    simp [byte_writeFrom, hj]
  · intro k hk
    rw [byte_writeFrom]
    split
    · rfl
    · exact List.getD_eq_default _ _ (by omega)

end Sys2Proof.Machine
end

section
/-! SUPPORT. The XOR of a region and its checksum (00_scope.md R12, 40_frame_buffer.md R100 to R102). -/

namespace Sys2Proof.Machine

@[simp] theorem xorAll_nil : xorAll [] = 0#8 := rfl

@[simp] theorem xorAll_cons (x : Byte) (bs : List Byte) : xorAll (x :: bs) = x ^^^ xorAll bs := by
  rw [xorAll, List.foldl_cons, BitVec.xor_comm, List.foldl_assoc, xorAll]

theorem xorAll_append (as bs : List Byte) : xorAll (as ++ bs) = xorAll as ^^^ xorAll bs := by
  induction as with
  | nil => simp
  | cons x as ih => simp [ih, BitVec.xor_assoc]

/-- Past its first byte a region is compared with the anchor as a whole; the clause for two bytes is a case of this. -/
theorem check_cons (x : Byte) {bs : List Byte} (h : bs ≠ []) : check (x :: bs) = (x == xorAll bs) := by
  match bs with
  | [y] => simp [check]
  | y :: z :: bs => rfl

theorem check_iff {bytes : List Byte} (h : 2 ≤ bytes.length) : check bytes = true ↔ xorAll bytes = 0#8 := by
  match bytes with
  | x :: y :: bs => rw [check_cons x (List.cons_ne_nil y bs), xorAll_cons x, beq_iff_eq, BitVec.xor_eq_zero_iff]

/-- Consecutive regions of a buffer. -/
theorem slice_append (f : FrameBuffer) {lo mid hi : Nat} (h1 : lo ≤ mid) (h2 : mid ≤ hi) :
    f.slice lo mid ++ f.slice mid hi = f.slice lo hi := by
  induction h1 using Nat.decreasingInduction with
  | self => simp [slice_empty]
  | of_succ lo hlt ih => rw [slice_succ f lo mid hlt, slice_succ f lo hi (by omega), List.cons_append, ih]

theorem slice_succ_right (f : FrameBuffer) {lo hi : Nat} (h : lo ≤ hi) :
    f.slice lo (hi + 1) = f.slice lo hi ++ [f.byte hi] := by
  rw [← slice_append f h hi.le_succ, slice_succ f hi (hi + 1) hi.lt_succ_self, slice_empty]

/-- A region passes exactly when its last byte is the XOR of those before it (R101). -/
theorem check_slice_iff (f : FrameBuffer) {lo hi : Nat} (h : lo < hi) :
    check (f.slice lo (hi + 1)) = true ↔ f.byte hi = xorAll (f.slice lo hi) := by
  rw [check_iff (by rw [length_slice]; omega), slice_succ_right f h.le, xorAll_append, xorAll_cons, xorAll_nil,
    BitVec.xor_zero, BitVec.xor_eq_zero_iff, eq_comm]

end Sys2Proof.Machine
end

section
/-! PROOF. The obligations of 40_frame_buffer.md about CHECK and FRAME_OK. -/

namespace Sys2Proof.Machine

/-- Settles O14: the XOR of the region is its anchor's with the rest's. -/
theorem checkIsZeroXor : Obligations.CheckIsZeroXor :=
  ⟨fun _ => check_iff, fun x => ⟨rfl, by simp⟩⟩

/-- Settles O15: region 1 splits after the header, whose XOR is 0x6D, and both regions before their last byte. -/
theorem frameOkByItsChecksumBytes : Obligations.FrameOkByItsChecksumBytes := by
  intro f hheader
  have hregion2 : check (f.slice 58 63) = true ↔ f.byte 62 = xorAll (f.slice 58 62) := check_slice_iff f (by decide)
  refine ⟨?_, ?_, hregion2⟩
  · rw [FrameBuffer.frameOk, Bool.and_eq_true, check_slice_iff f (by decide), hregion2]
  · have hxor : xorAll (f.slice 0 3) = 0x6D#8 := by rw [hheader]; decide
    rw [check_iff (by rw [length_slice]; decide), ← slice_append f (Nat.zero_le 3) (by decide), xorAll_append, hxor,
      BitVec.xor_eq_zero_iff, eq_comm]

end Sys2Proof.Machine
end

section
/-! SUPPORT. The command word of WRBUF and the filling buffer after a flip of WHICH (30_encoding.md R81, 41_decoder.md
R143). -/

namespace Sys2Proof.Machine

theorem encode_wrbuf_eq_or (i : BitVec 6) (v : Byte) :
    encode (.wrbuf i v) = (0x30000000#32 ||| i.setWidth 32 <<< 8 ||| v.setWidth 32) := by
  apply BitVec.eq_of_toNat_eq
  have hi : i.toNat <<< 8 < 2 ^ 32 := by
    rw [Nat.shiftLeft_eq]
    omega
  rw [encode, commandWord, BitVec.toNat_append, BitVec.toNat_append, Nat.shiftLeft_or_distrib, BitVec.toNat_or,
    BitVec.toNat_or, BitVec.toNat_shiftLeft, BitVec.toNat_setWidth_of_le (by decide),
    BitVec.toNat_setWidth_of_le (by decide), Nat.mod_eq_of_lt hi]
  rfl

/-- The buffer that a flip of WHICH recycles is the filling one, and it is empty (41_decoder.md R143). -/
theorem Effect.tail_fill_of_flip {s t : State} {i : Instr} (h : Effect s i t) (hw : t.which ≠ s.which) :
    t.fill.tail = 0#6 := by
  cases h with
  | restart => rfl
  | gated n | emit n => simp [FrameBuffer.blank]
  | _ => exact absurd rfl hw

end Sys2Proof.Machine
end

section
/-! PROOF. The obligations of 40_frame_buffer.md about GETBUF and WRBUF. -/

namespace Sys2Proof.Machine

/-- Settles O10: GETBUF only answers, and the two ways a buffer is emptied leave TAIL 0. -/
theorem getbufReportsTheWindow : Obligations.GetbufReportsTheWindow := by
  refine ⟨by decide, rfl, fun s t h => ?_, fun s t n h => (effect_of_exec h).tail_fill_of_flip, fun s => ?_⟩
  · cases h
    rfl
  · have hlen : (BitVec.ofNat 6 s.fill.windowLen).toNat = 63 - s.fill.tail.toNat :=
      Nat.mod_eq_of_lt (by rw [windowLen_eq]; omega)
    refine ⟨_, rfl, rfl, rfl, hlen, fun h => ?_, fun h => ?_, rfl⟩
    · rw [State.respond_res, hlen]
      omega
    · rw [State.respond_res, windowLen_eq, h]
      rfl

/-- Settles O11: one write at TAIL + i inside the window, WINDOW_RANGE beyond it. -/
theorem wrbufWritesOneWindowByte : Obligations.WrbufWritesOneWindowByte := by
  intro s i v
  rw [← windowLen_eq]
  refine ⟨encode_wrbuf_eq_or i v, fun hin => ?_, fun hout => ?_⟩
  · have hlt : s.fill.tail.toNat + i.toNat < 63 := by
      rw [windowLen_eq] at hin
      omega
    refine ⟨_, exec_wrbuf_inside v hin, rfl, rfl, by simp, by simp, by simp [byte_write], ?_, fun a ha => ⟨?_, ?_⟩⟩
    · simp [isDef_write _ _ _ _ hlt]
    · simp [byte_write, ha.symm]
    · simp [isDef_write _ _ _ _ hlt, ha.symm]
  · exact ⟨_, exec_wrbuf_beyond v hout, rfl, by simp [State.raise, State.note, State.respond]⟩

/-- Settles O13: inside the window the second WRBUF does what it would do alone, and beyond it neither writes. -/
theorem wrbufLaterWriteWins : Obligations.WrbufLaterWriteWins := by
  intro s t u w i v v' ht hu hw
  rcases le_or_gt s.fill.windowLen i.toNat with hout | hin
  · cases (exec_wrbuf_beyond v hout).symm.trans ht
    cases (exec_wrbuf_beyond v' hout).symm.trans hw
    cases (exec_wrbuf_beyond (s := s.raise (.windowRange i)) v' hout).symm.trans hu
    exact ⟨rfl, rfl⟩
  · cases (exec_wrbuf_after_wrbuf hin ht hw).symm.trans hu
    exact ⟨rfl, rfl⟩

end Sys2Proof.Machine
end

section
/-! SUPPORT. What a RESYNC keeps, and when VERIFY moves no byte (40_frame_buffer.md R110 to R117). -/

namespace Sys2Proof.Machine

theorem headerAt_eq_true {f : FrameBuffer} {p e : Nat} : f.headerAt p e = true ↔ HeaderMatches f p e :=
  headerAt_iff f p e

theorem headerAt_eq_false {f : FrameBuffer} {p e : Nat} : f.headerAt p e = false ↔ ¬ HeaderMatches f p e := by
  rw [← headerAt_eq_true, Bool.not_eq_true]

/-- A header that lies before the end in full. -/
theorem headerMatches_iff_slice {f : FrameBuffer} {p e : Nat} (h : p + 3 ≤ e) :
    HeaderMatches f p e ↔ f.slice p (p + 3) = [0xBD#8, 0xDB#8, 0x0B#8] := by
  have hmin : min 3 (e - p) = 3 := by omega
  rw [← headerAt_eq_true, FrameBuffer.headerAt, hmin, beq_iff_eq]
  rfl

/-- No header starts at the second or third byte of a header, as neither is its first byte (R117). -/
theorem not_headerMatches_inside_header {f : FrameBuffer} {e q : Nat} (h : HeaderMatches f 0 e) (he : 3 ≤ e)
    (hq : 1 ≤ q) (hq' : q < 3) : ¬ HeaderMatches f q e := by
  intro hm
  have hbyte := h q hq' (by omega)
  have hfirst := hm 0 (by decide) (by omega)
  rw [Nat.zero_add] at hbyte
  rw [Nat.add_zero, hbyte] at hfirst
  have hdiffer : ∀ q < 3, 1 ≤ q → magic.getD q 0#8 ≠ magic.getD 0 0#8 := by decide
  exact hdiffer q hq' hq hfirst

/-- A search from an earlier position up to which nothing matches. -/
theorem findHeader_of_no_match {f : FrameBuffer} {lo mid e : Nat} (hle : lo ≤ mid)
    (h : ∀ q, lo ≤ q → q < mid → ¬ HeaderMatches f q e) : f.findHeader lo e = f.findHeader mid e := by
  ext p
  rw [findHeader_some, findHeader_some]
  constructor
  · rintro ⟨hlo, hp, hm, hearlier⟩
    have hmid : mid ≤ p := not_lt.1 fun hlt => h p hlo hlt (headerAt_eq_true.1 hm)
    exact ⟨hmid, hp, hm, fun q hq => hearlier q (hle.trans hq)⟩
  · rintro ⟨hlo, hp, hm, hearlier⟩
    refine ⟨hle.trans hlo, hp, hm, fun q hq hqp => ?_⟩
    rcases lt_or_ge q mid with hlt | hge
    · exact headerAt_eq_false.2 (h q hq hlt)
    · exact hearlier q hge hqp

theorem resync_of_find {f : FrameBuffer} {lo e p : Nat} (draw : Nat) (h : f.findHeader lo e = some p) :
    f.resync lo e draw = (f.shift p e draw, e - p) := by
  rw [FrameBuffer.resync, h]

theorem resync_of_find_none {f : FrameBuffer} {lo e : Nat} (draw : Nat) (h : f.findHeader lo e = none) :
    f.resync lo e draw = (f.discard lo e draw, 0) := by
  rw [FrameBuffer.resync, h]

/-- `p` is where a search of `[lo, e)` ends: at the earliest match, or at `e` when there is none. -/
structure FrameBuffer.SearchEnd (f : FrameBuffer) (lo e p : Nat) : Prop where
  lo_le : lo ≤ p
  le_end : p ≤ e
  isMatch : p < e → HeaderMatches f p e
  noEarlier : ∀ q, lo ≤ q → q < p → ¬ HeaderMatches f q e

/-- RESYNC keeps the bytes from where its search ends on, and the buffer as it is when that is 0 (R110, R111). -/
theorem resync_keeps (f : FrameBuffer) {lo e : Nat} (hle : lo ≤ e) (draw : Nat) : ∃ p, f.SearchEnd lo e p ∧
    (f.resync lo e draw).2 = e - p ∧ (p = 0 → (f.resync lo e draw).1 = f) ∧
    ∀ j, j < e - p → (f.resync lo e draw).1.byte j = f.byte (p + j) := by
  cases h : f.findHeader lo e with
  | some p =>
    obtain ⟨hlo, hp, hm, hearlier⟩ := findHeader_some.1 h
    rw [resync_of_find draw h]
    exact ⟨p, ⟨hlo, hp.le, fun _ => headerAt_eq_true.1 hm, fun q hq hqp => headerAt_eq_false.1 (hearlier q hq hqp)⟩,
      rfl, fun h0 => by rw [h0, shift_zero], fun j => byte_shift f p e draw j⟩
  | none =>
    have hnone := findHeader_none.1 h
    rw [resync_of_find_none draw h]
    exact ⟨e, ⟨hle, le_rfl, fun hlt => absurd hlt (lt_irrefl e), fun q hq hqe => headerAt_eq_false.1 (hnone q hq hqe)⟩,
      (Nat.sub_self e).symm, fun h0 => discard_empty f lo e draw (by omega), fun j hj => absurd hj (by simp)⟩

/-- A header at the start of the range is found there, and an empty range is left as it is. -/
theorem resync_of_headerMatches {f : FrameBuffer} {e : Nat} (draw : Nat) (h : HeaderMatches f 0 e) :
    f.resync 0 e draw = (f, e) := by
  cases e with
  | zero => rfl
  | succ e => exact resync_of_find draw (findHeader_some.2 ⟨le_rfl, e.succ_pos, headerAt_eq_true.2 h, nofun⟩)

/-- Step 1 of VERIFY moves nothing when the header is confirmed or starts at 0 (R115). -/
theorem assemble_in_place {f : FrameBuffer} {n : Nat} (draw : Nat)
    (h : f.tail.toNat < 3 → HeaderMatches f 0 (f.tail.toNat + n)) : f.assemble n draw = (f, f.tail.toNat + n) := by
  unfold FrameBuffer.assemble
  split
  · next hlt => exact resync_of_headerMatches draw (h hlt)
  · rfl

theorem verify_of_assemble {f g : FrameBuffer} {n len draw : Nat} (h : f.assemble n draw = (g, len))
    (hok : len ≠ 63 ∨ g.frameOk = true) : f.verify n draw = (g.setTail len, len == 63) := by
  obtain ⟨hlen, hbad, -⟩ | ⟨-, hv⟩ := verify_cases f n draw
  · rw [h] at hlen hbad
    exact hok.elim (absurd hlen) fun htrue => absurd (htrue.symm.trans hbad) (by decide)
  · rw [hv, h]

theorem verify_of_rejected {f g : FrameBuffer} {n draw : Nat} (h : f.assemble n draw = (g, 63))
    (hbad : g.frameOk = false) :
    f.verify n draw = ((g.resync 3 63 draw).1.setTail (g.resync 3 63 draw).2, false) := by
  obtain ⟨-, -, hv⟩ | ⟨hok, -⟩ := verify_cases f n draw
  · rw [hv, h]
  · rw [h] at hok
    exact hok.elim (absurd rfl) fun htrue => absurd (htrue.symm.trans hbad) (by decide)

/-- A valid frame that the reported bytes complete is accepted where it lies (R120). -/
theorem verify_frame {f : FrameBuffer} {n : Nat} (draw : Nat) (hfull : f.tail.toNat + n = 63)
    (hheader : HeaderMatches f 0 63) (hok : f.frameOk = true) : f.verify n draw = (f.setTail 63, true) := by
  have ha := assemble_in_place (f := f) (n := n) draw fun _ => hfull ▸ hheader
  rw [hfull] at ha
  exact verify_of_assemble ha (.inr hok)

theorem toNat_tail_setTail (f : FrameBuffer) {len : Nat} (h : len ≤ 63) : (f.setTail len).tail.toNat = len :=
  Nat.mod_eq_of_lt (by omega)

theorem setTail_tail (f : FrameBuffer) : f.setTail f.tail.toNat = f := by
  simp [FrameBuffer.setTail]

end Sys2Proof.Machine
end

section
/-! PROOF. The obligations of 40_frame_buffer.md about RESYNC and VERIFY. -/

namespace Sys2Proof.Machine

/-- Settles O16: the search answers the earliest match, which SHIFT moves to 0, and without one DISCARD clears. -/
theorem resyncTakesTheEarliestMatch : Obligations.ResyncTakesTheEarliestMatch := by
  intro f lo e draw hle he
  refine ⟨fun p hlo hp hm hearlier => ?_, fun hnone => ?_⟩
  · have hfind : f.findHeader lo e = some p := findHeader_some.2
      ⟨hlo, hp, headerAt_eq_true.2 hm, fun q hq hqp => headerAt_eq_false.2 (hearlier q hq hqp)⟩
    rw [resync_of_find draw hfind]
    refine ⟨rfl, tail_shift f p e draw, ?_, fun j hj => ⟨byte_shift f p e draw j hj, ?_⟩, fun hp0 j hj => ?_⟩
    · rintro rfl
      exact shift_zero f e draw
    · rcases eq_or_ne p 0 with rfl | hp0
      · rw [shift_zero, Nat.zero_add]
      · have hlt : p + j < e := by omega
        simp [isDef_shift f p e draw j hp0 he, hlt]
    · have hge : ¬ p + j < e := by omega
      simp [isDef_shift f p e draw j hp0 he, hge]
  · rw [resync_of_find_none draw (findHeader_none.2 fun q hq hqe => headerAt_eq_false.2 (hnone q hq hqe))]
    exact ⟨rfl, tail_discard f lo e draw, fun h => discard_empty f lo e draw h.ge,
      fun h j => isDef_discard f lo e draw j h⟩

/-- Settles O17: what is kept starts at a header match. -/
theorem resyncLeavesTheHeaderFirst : Obligations.ResyncLeavesTheHeaderFirst := by
  intro f lo e draw _ _
  refine ⟨resync_le f lo e draw, fun k hk hlen => ?_⟩
  have h := resync_headerMatches f lo e draw k hk (by rwa [Nat.zero_add])
  rwa [Nat.zero_add] at h

/-- Settles O18: the rescan starts past the rejected header and keeps the bytes from its earliest match on. -/
theorem rejectedFrameIsRescanned : Obligations.RejectedFrameIsRescanned := by
  intro f g n draw ha hbad
  obtain ⟨p, ⟨hlo, hend, hm, hearlier⟩, hlen, -, hbytes⟩ := resync_keeps g (lo := 3) (e := 63) (by decide) draw
  have htail : (f.verify n draw).1.tail.toNat = 63 - p := by
    rw [verify_of_rejected ha hbad, hlen, toNat_tail_setTail _ (Nat.sub_le 63 p)]
  refine ⟨by rw [verify_of_rejected ha hbad], by omega, p, hlo, hend, htail, fun j hj => ?_, hm, hearlier⟩
  rw [verify_of_rejected ha hbad, byte_setTail, hbytes j hj]

/-- Settles O19: the second and third header byte are not the first, so both searches end alike. -/
theorem rescanFromThreeLosesNoHeader : Obligations.RescanFromThreeLosesNoHeader := by
  intro f draw hheader
  have hno : ∀ q, 1 ≤ q → q < 3 → ¬ HeaderMatches f q 63 := fun q hq hq' =>
    not_headerMatches_inside_header ((headerMatches_iff_slice (by decide)).2 hheader) (by decide) hq hq'
  refine ⟨hno 1 le_rfl (by decide), hno 2 (by decide) (by decide), ?_⟩
  rw [FrameBuffer.resync, FrameBuffer.resync, findHeader_of_no_match (by decide) hno]
  rfl

/-- Settles O20: the header stands at 0 and the reported bytes fill the buffer. -/
theorem validFrameVerifiesAtOnce : Obligations.ValidFrameVerifiesAtOnce := by
  intro f draw htail hheader hok
  exact verify_frame draw (by rw [htail]; rfl) ((headerMatches_iff_slice (by decide)).2 hheader) hok

/-- Settles O21: step 1 moves nothing and step 2 does not run below 63. -/
theorem confirmedHeaderAcceptsTheLength : Obligations.ConfirmedHeaderAcceptsTheLength := by
  intro f n draw
  refine ⟨fun hconfirmed hlt => ?_, fun hfull hheader => ?_⟩
  · rw [verify_of_assemble (assemble_in_place draw fun h => absurd h hconfirmed.not_gt) (.inl hlt.ne),
      beq_false_of_ne hlt.ne]
    rfl
  · have hne : f.tail.toNat ≠ 63 := by omega
    have ha : f.assemble 0 draw = (f, f.tail.toNat) := assemble_in_place draw fun _ k hk hlen => by
      rw [Nat.zero_add] at hlen ⊢
      exact hheader k hk hlen
    rw [verify_of_assemble ha (.inl hne), beq_false_of_ne hne, setTail_tail]

end Sys2Proof.Machine
end

section
/-! SUPPORT. What VERIFY drops from the filling buffer (40_frame_buffer.md R115 to R117). -/

namespace Sys2Proof.Machine

theorem slice_of_shifted {f g : FrameBuffer} {p e : Nat} (h : ∀ j, j < e - p → g.byte j = f.byte (p + j)) :
    g.slice 0 (e - p) = f.slice p e :=
  List.map_congr_left fun j hj => by
    rw [Nat.zero_add]
    exact h j (List.mem_range.1 hj)

/-- `r` is `f` after a VERIFY that ends at `e`: the first `p` bytes are dropped and the others kept, and no header
match is dropped but that of a full buffer that fails FRAME_OK. -/
structure FrameBuffer.Drops (f : FrameBuffer) (e p : Nat) (r : FrameBuffer × Bool) : Prop where
  le_end : p ≤ e
  tail : r.1.tail.toNat = e - p
  kept : r.1.slice 0 (e - p) = f.slice p e
  header : r.1.HoldsHeader
  accepted : r.2 = true → e = 63 ∧ HeaderMatches f 0 63 ∧ f.frameOk = true
  noHeader : ∀ q, q < p → HeaderMatches f q e → q = 0 ∧ e = 63 ∧ f.frameOk = false

/-- The rescan of a rejected frame drops its header and no other (R116, R117). -/
theorem drops_rescan {f : FrameBuffer} (hheader : HeaderMatches f 0 63) (hbad : f.frameOk = false) (draw : Nat) :
    ∃ p, f.Drops 63 p ((f.resync 3 63 draw).1.setTail (f.resync 3 63 draw).2, false) := by
  obtain ⟨p, hend, hlen, -, hbytes⟩ := resync_keeps f (lo := 3) (e := 63) (by decide) draw
  refine ⟨p, hend.le_end, ?_, slice_of_shifted hbytes, ?_, nofun, fun q hq hm => ?_⟩
  · rw [hlen, toNat_tail_setTail _ (Nat.sub_le 63 p)]
  · exact holdsHeader_setTail (by omega) (resync_headerMatches f 3 63 draw)
  · have hlt : q < 3 := not_le.1 fun hge => hend.noEarlier q hge hq hm
    have hzero : ¬ 1 ≤ q := fun hge => not_headerMatches_inside_header hheader (by decide) hge hlt hm
    exact ⟨by omega, rfl, hbad⟩

/-- Step 1 of VERIFY drops no header match (R115). -/
theorem assemble_keeps (f : FrameBuffer) (n draw : Nat) : ∃ p, p ≤ f.tail.toNat + n ∧
    (f.assemble n draw).2 = f.tail.toNat + n - p ∧ (p = 0 → (f.assemble n draw).1 = f) ∧
    (∀ j, j < f.tail.toNat + n - p → (f.assemble n draw).1.byte j = f.byte (p + j)) ∧
    ∀ q, q < p → ¬ HeaderMatches f q (f.tail.toNat + n) := by
  unfold FrameBuffer.assemble
  split
  · obtain ⟨p, hend, hlen, hzero, hbytes⟩ := resync_keeps f (Nat.zero_le (f.tail.toNat + n)) draw
    exact ⟨p, hend.le_end, hlen, hzero, hbytes, fun q => hend.noEarlier q q.zero_le⟩
  · exact ⟨0, Nat.zero_le _, rfl, fun _ => rfl, fun j _ => by rw [Nat.zero_add], nofun⟩

theorem verify_drops {f : FrameBuffer} {n : Nat} (hn : n ≤ f.windowLen) (draw : Nat) (hf : f.HoldsHeader) :
    ∃ p, f.Drops (f.tail.toNat + n) p (f.verify n draw) := by
  have hheader := assemble_headerMatches n draw hf
  obtain ⟨p, hend, hlen, hzero, hbytes, hearlier⟩ := assemble_keeps f n draw
  have hle := assemble_le hn draw
  have hfull : f.tail.toNat + n - p = 63 → p = 0 ∧ f.tail.toNat + n = 63 ∧ (f.assemble n draw).1 = f := by
    intro h
    rw [windowLen_eq] at hn
    have htail := f.tail.isLt
    have hp : p = 0 := by omega
    exact ⟨hp, by omega, hzero hp⟩
  obtain ⟨h63, hbad, hv⟩ | ⟨hok, hv⟩ := verify_cases f n draw <;> rw [hv]
  · obtain ⟨-, he, ha⟩ := hfull (hlen.symm.trans h63)
    rw [ha, h63] at hheader
    rw [ha] at hbad ⊢
    rw [he]
    exact drops_rescan hheader hbad draw
  · refine ⟨p, hend, ?_, slice_of_shifted hbytes, holdsHeader_setTail hle hheader, fun h => ?_,
      fun q hq hm => absurd hm (hearlier q hq)⟩
    · rw [toNat_tail_setTail _ hle, hlen]
    · have h63 := beq_iff_eq.1 h
      obtain ⟨-, he, ha⟩ := hfull (hlen.symm.trans h63)
      rw [ha] at hok
      rw [ha, h63] at hheader
      exact ⟨he, hheader, hok.resolve_left (absurd h63)⟩

end Sys2Proof.Machine
end

section
/-! SUPPORT. A filling buffer in the middle of a byte stream that ends with a valid frame (40_frame_buffer.md R122). -/

namespace Sys2Proof.Machine

theorem getElem?_slice {f : FrameBuffer} {lo hi j : Nat} (hj : j < hi - lo) :
    (f.slice lo hi)[j]? = some (f.byte (lo + j)) := by
  simp [FrameBuffer.slice, hj]

/-- FRAME_OK in terms of the 63 bytes as a list (R102). -/
theorem frameOk_iff_slice (f : FrameBuffer) : f.frameOk = true ↔ FrameBytesOk (f.slice 0 63) := by
  have hlen : (f.slice 0 58).length = 58 := length_slice f 0 58
  rw [FrameBytesOk, ← slice_append f (Nat.zero_le 58) (by decide), List.take_left' hlen, List.drop_left' hlen,
    FrameBuffer.frameOk, Bool.and_eq_true]
  simp [length_slice]

/-- 63 bytes with the magic header and both checksums. -/
structure ValidFrame (frame : List Byte) : Prop where
  ok : FrameBytesOk frame
  header : frame.take 3 = [0xBD#8, 0xDB#8, 0x0B#8]

/-- No 63-byte window that starts at a full header match inside the garbage passes the checksums (R122). -/
def NoFalseFrame (garbage frame : List Byte) : Prop :=
  ∀ q, q < garbage.length → ((garbage ++ frame).drop q).take 3 = [0xBD#8, 0xDB#8, 0x0B#8] →
    ¬ FrameBytesOk (((garbage ++ frame).drop q).take 63)

theorem NoFalseFrame.drop {garbage frame : List Byte} (h : NoFalseFrame garbage frame) {p : Nat}
    (hp : p ≤ garbage.length) : NoFalseFrame (garbage.drop p) frame := by
  intro q hq
  rw [List.length_drop] at hq
  rw [← List.drop_append_of_le_length hp, List.drop_drop]
  exact h (p + q) (by omega)

/-- The buffer's bytes and the `rest` of the stream are `garbage` and then the frame. -/
structure FrameBuffer.Awaits (f : FrameBuffer) (rest garbage frame : List Byte) : Prop where
  header : f.HoldsHeader
  stream : f.slice 0 f.tail.toNat ++ rest = garbage ++ frame
  noFalse : NoFalseFrame garbage frame

section
variable {f : FrameBuffer} {e : Nat} {rest garbage frame : List Byte} (hvalid : ValidFrame frame)
  (hstream : f.slice 0 e ++ rest = garbage ++ frame)
include hvalid hstream

/-- As far as the frame has come, its header stands behind the garbage. -/
theorem headerMatches_of_stream : HeaderMatches f garbage.length e := by
  intro k hk he
  have hmagic : frame.take 3 = magic := hvalid.header
  have hbyte : some (f.byte (garbage.length + k)) = some (magic.getD k 0#8) := calc
    some (f.byte (garbage.length + k))
    _ = (f.slice 0 e)[garbage.length + k]? := by rw [getElem?_slice (by omega), Nat.zero_add]
    _ = (f.slice 0 e ++ rest)[garbage.length + k]? := by rw [List.getElem?_append_left (by rw [length_slice]; omega)]
    _ = frame[k]? := by rw [hstream, List.getElem?_append_right (Nat.le_add_right _ _), Nat.add_sub_cancel_left]
    _ = magic[k]? := by rw [← hmagic, List.getElem?_take_of_lt hk]
    _ = some (magic.getD k 0#8) := magic_getD k hk
  exact Option.some_inj.1 hbyte

theorem length_stream : e + rest.length = garbage.length + 63 := by
  have hlen := congrArg List.length hstream
  rwa [List.length_append, List.length_append, length_slice, hvalid.ok.1] at hlen

/-- A buffer that fills up before the stream ends fails the checksums. -/
theorem frameOk_eq_false_of_stream (hnofalse : NoFalseFrame garbage frame) (hrest : rest ≠ []) (he : e = 63)
    (hheader : HeaderMatches f 0 63) : f.frameOk = false := by
  have hpos := List.length_pos_iff.2 hrest
  have hlen := length_stream hvalid hstream
  subst he
  have hwindow : (garbage ++ frame).take 63 = f.slice 0 63 := by
    rw [← hstream, List.take_left' (length_slice f 0 63)]
  have hhead : (garbage ++ frame).take 3 = f.slice 0 3 := by
    rw [← hstream, ← slice_append f (Nat.zero_le 3) (by decide), List.append_assoc,
      List.take_left' (length_slice f 0 3)]
  have hbad := hnofalse 0 (by omega)
  rw [List.drop_zero, hwindow, hhead, ← frameOk_iff_slice, Bool.not_eq_true] at hbad
  exact hbad ((headerMatches_iff_slice (by decide)).1 hheader)

/-- While the stream goes on VERIFY accepts nothing, and it drops garbage only. -/
theorem awaits_of_drops {r : FrameBuffer × Bool} {p : Nat} (hnofalse : NoFalseFrame garbage frame) (hrest : rest ≠ [])
    (hd : f.Drops e p r) : r.2 = false ∧ r.1.Awaits rest (garbage.drop p) frame := by
  have hpos := List.length_pos_iff.2 hrest
  have hlen := length_stream hvalid hstream
  have hp : p ≤ garbage.length := by
    refine not_lt.1 fun hlt => ?_
    obtain ⟨hzero, he, -⟩ := hd.noHeader _ hlt (headerMatches_of_stream hvalid hstream)
    omega
  refine ⟨Bool.eq_false_iff.2 fun htrue => ?_, hd.header, ?_, hnofalse.drop hp⟩
  · obtain ⟨he, hheader, hok⟩ := hd.accepted htrue
    exact absurd (hok.symm.trans (frameOk_eq_false_of_stream hvalid hstream hnofalse hrest he hheader)) (by decide)
  · have hsplit : f.slice 0 p ++ (f.slice p e ++ rest) = garbage ++ frame := by
      rw [← hstream, ← slice_append f (Nat.zero_le p) hd.le_end, List.append_assoc]
    have hcut : (f.slice 0 p).length = p := length_slice f 0 p
    rw [hd.tail, hd.kept, ← List.drop_append_of_le_length hp, ← hsplit, List.drop_left' hcut]

end

/-- At the end of the stream the buffer holds the frame and nothing else, and VERIFY accepts it (R120). -/
theorem verify_end_of_stream {f : FrameBuffer} {n : Nat} {garbage frame : List Byte} (hvalid : ValidFrame frame)
    (hstream : f.slice 0 (f.tail.toNat + n) = garbage ++ frame) (hn : n ≤ f.windowLen) (draw : Nat) :
    f.slice 0 63 = frame ∧ f.verify n draw = (f.setTail 63, true) := by
  have hlen := length_stream (rest := []) hvalid (by rwa [List.append_nil])
  have htail := f.tail.isLt
  rw [windowLen_eq] at hn
  rw [List.length_nil] at hlen
  obtain rfl : garbage = [] := List.length_eq_zero_iff.1 (by omega)
  have hfull : f.tail.toNat + n = 63 := by rwa [List.length_nil] at hlen
  rw [hfull, List.nil_append] at hstream
  have hheader := headerMatches_of_stream (e := 63) (rest := []) (garbage := []) hvalid (by simpa using hstream)
  exact ⟨hstream, verify_frame draw hfull hheader ((frameOk_iff_slice f).2 (hstream ▸ hvalid.ok))⟩

end Sys2Proof.Machine
end

section
/-! SUPPORT. FEEDs that make up a byte stream (30_encoding.md R86, 40_frame_buffer.md R122): each but the last drops
garbage, and the last promotes the frame. -/

namespace Sys2Proof.Machine

/-- NOTIFY without a verified frame answers Nothing (41_decoder.md R142). -/
theorem exec_notify_unverified {s : State} {n : BitVec 6} (hn : n.toNat ≤ s.fill.windowLen)
    (hv : (s.fill.verify n.toNat s.draws).2 = false) : exec (.notify n) s = .next (s.verified n).solveNothing := by
  obtain ⟨hout, -⟩ | ⟨-, -, he⟩ | ⟨-, hv', -⟩ | ⟨-, hv', -⟩ := exec_notify_cases n s
  · exact absurd hn hout.not_ge
  · exact he
  · exact absurd (hv.symm.trans hv') (by decide)
  · exact absurd (hv.symm.trans hv') (by decide)

/-- The elements an emission reads beside the frame and NOW are the same (10_state.md R28, R29, R31). -/
structure State.SameHistory (s t : State) : Prop where
  pss : t.pss = s.pss
  lastEmit : t.lastEmit = s.lastEmit
  lastValid : t.lastValid = s.lastValid
  ref : t.ref = s.ref

theorem State.SameHistory.trans {s t u : State} (h : s.SameHistory t) (h' : t.SameHistory u) : s.SameHistory u :=
  ⟨h'.pss.trans h.pss, h'.lastEmit.trans h.lastEmit, h'.lastValid.trans h.lastValid, h'.ref.trans h.ref⟩

/-- `u` is the state in which the NOTIFY n of a FEED of these bytes in `s` is executed. -/
structure State.Delivered (s : State) (now : BitVec 64) (bytes : List Byte) (n : BitVec 6) (u : State) : Prop where
  history : s.SameHistory u
  now_eq : u.arg.now = now
  fits : n.toNat ≤ u.fill.windowLen
  held : u.fill.slice 0 (u.fill.tail.toNat + n.toNat) = s.fill.slice 0 s.fill.tail.toNat ++ bytes
  header : s.fill.HoldsHeader → u.fill.HoldsHeader

theorem slice_eq_of_getD {f : FrameBuffer} {o : Nat} {bytes : List Byte}
    (h : ∀ j, j < bytes.length → f.byte (o + j) = bytes.getD j 0#8) : f.slice o (o + bytes.length) = bytes := by
  refine List.ext_getElem (by rw [length_slice, Nat.add_sub_cancel_left]) fun j _ hj => ?_
  simpa [FrameBuffer.slice, hj] using h j hj

theorem feed_delivers {s : State} (arg : Arg) (now : BitVec 64) {bytes : List Byte}
    (hfit : bytes.length ≤ s.fill.windowLen) : ∃ u t rs n, run (feed arg now bytes) s = some (t, rs) ∧
      exec (.notify n) u = .next t ∧ s.Delivered now bytes n u := by
  obtain ⟨u, t, rs, hrun, -, -, hexec, -, hnow, hu, -, htail, hbytes, hothers⟩ :=
    feedDeliversItsBytes s arg now bytes hfit
  rw [windowLen_eq] at hfit
  have hn : (BitVec.ofNat 6 bytes.length).toNat = bytes.length := Nat.mod_eq_of_lt (by omega)
  refine ⟨u, t, rs, BitVec.ofNat 6 bytes.length, hrun, hexec, ?_, hnow, ?_, ?_, fun hs k hk hlt => ?_⟩
  · rw [hu]
    exact ⟨rfl, rfl, rfl, rfl⟩
  · rwa [hn, windowLen_eq, htail]
  · rw [hn, htail, ← slice_append u.fill (Nat.zero_le s.fill.tail.toNat) (Nat.le_add_right _ _),
      slice_eq_of_getD hbytes, slice_congr fun j _ hj => hothers j (.inl hj)]
  · rw [htail] at hlt
    rw [hothers k (.inl hlt)]
    exact hs k hk hlt

/-- `t` is left by promoting this frame, with this NOW and the history of `s`. -/
def State.Promotes (s : State) (now : BitVec 64) (frame : List Byte) (t : State) : Prop :=
  ∃ v : State, t = v.promote ∧ v.fill.slice 0 63 = frame ∧ v.arg.now = now ∧ s.SameHistory v

theorem byte_eq_of_slice {f g : FrameBuffer} {e a : Nat} (h : f.slice 0 e = g.slice 0 e) (ha : a < e) :
    f.byte a = g.byte a := by
  have hget := congrArg (·[a]?) h
  simpa [getElem?_slice (f := f) (lo := 0) (hi := e) ha, getElem?_slice (f := g) (lo := 0) (hi := e) ha] using hget

/-- The Solution is the frame's, whatever buffer it came to stand in (30_encoding.md R75). -/
theorem State.Promotes.sameSolution {s t t' : State} {now : BitVec 64} {frame : List Byte}
    (h : s.Promotes now frame t) (h' : s.Promotes now frame t') : Res.SameSolution t.res t'.res := by
  obtain ⟨v, rfl, hframe, hnow, hsame⟩ := h
  obtain ⟨v', rfl, hframe', hnow', hsame'⟩ := h'
  have hused : ∀ a ∈ usedOffsets, a < 63 := by decide
  have hinputs : v.swap.SameInputs v'.swap :=
    { used := by
        rw [State.cur_swap, State.cur_swap]
        exact fun a ha => byte_eq_of_slice (hframe.trans hframe'.symm) (hused a ha)
      pss := hsame.pss.trans hsame'.pss.symm
      lastEmit := hsame.lastEmit.trans hsame'.lastEmit.symm
      lastValid := hsame.lastValid.trans hsame'.lastValid.symm
      ref := hsame.ref.trans hsame'.ref.symm
      now := hnow.trans hnow'.symm }
  exact hinputs.promote.1

section
variable {garbage frame : List Byte} (hvalid : ValidFrame frame)
include hvalid

/-- A FEED before the end of the stream. -/
theorem feed_awaits {s : State} (arg : Arg) (now : BitVec 64) {bytes rest : List Byte}
    (hs : s.fill.Awaits (bytes ++ rest) garbage frame) (hfit : bytes.length ≤ s.fill.windowLen) (hrest : rest ≠ []) :
    ∃ t rs garbage', run (feed arg now bytes) s = some (t, rs) ∧ t.fill.Awaits rest garbage' frame ∧
      s.SameHistory t := by
  obtain ⟨u, t, rs, n, hrun, hexec, hu⟩ := feed_delivers arg now hfit
  have hstream : u.fill.slice 0 (u.fill.tail.toNat + n.toNat) ++ rest = garbage ++ frame := by
    rw [hu.held, List.append_assoc, hs.stream]
  obtain ⟨p, hdrops⟩ := verify_drops hu.fits u.draws (hu.header hs.header)
  obtain ⟨hnot, hawaits⟩ := awaits_of_drops hvalid hstream hs.noFalse hrest hdrops
  cases (exec_notify_unverified hu.fits hnot).symm.trans hexec
  exact ⟨_, rs, garbage.drop p, hrun, by simpa using hawaits, hu.history.trans ⟨rfl, rfl, rfl, rfl⟩⟩

/-- The FEED that ends the stream. -/
theorem feed_promotes {s : State} (arg : Arg) (now : BitVec 64) {last : List Byte}
    (hs : s.fill.slice 0 s.fill.tail.toNat ++ last = garbage ++ frame) (hfit : last.length ≤ s.fill.windowLen) :
    ∃ t rs, run (feed arg now last) s = some (t, rs) ∧ s.Promotes now frame t := by
  obtain ⟨u, t, rs, n, hrun, hexec, hu⟩ := feed_delivers arg now hfit
  obtain ⟨hframe, hverify⟩ := verify_end_of_stream hvalid (hu.held.trans hs) hu.fits u.draws
  cases (exec_notify_verified hu.fits (by rw [hverify])).symm.trans hexec
  exact ⟨_, rs, hrun, u.verified n, rfl, by rwa [verified_fill, hverify, slice_setTail], hu.now_eq,
    hu.history.trans ⟨rfl, rfl, rfl, rfl⟩⟩

/-- The FEEDs of the whole stream, in any chunks that fit. -/
theorem feeds_promote (arg : Arg) (now : BitVec 64) {last : List Byte} (hlast : last ≠ [])
    {chunks : List (BitVec 64 × List Byte)} {s : State}
    (hs : s.fill.Awaits ((chunks ++ [(now, last)]).map Prod.snd).flatten garbage frame)
    (hfit : FeedsFit arg (chunks ++ [(now, last)]) s) :
    ∃ t rs, run (feeds arg (chunks ++ [(now, last)])) s = some (t, rs) ∧ s.Promotes now frame t := by
  induction chunks generalizing s garbage with
  | nil =>
    obtain ⟨t, rs, hrun, hpromotes⟩ := feed_promotes hvalid arg now (last := last) (by simpa using hs.stream) hfit.1
    exact ⟨t, rs, by simpa [feeds] using hrun, hpromotes⟩
  | cons c chunks ih =>
    obtain ⟨hc, hfit⟩ := hfit
    obtain ⟨t, rs, garbage', hrun, hawaits, hsame⟩ := feed_awaits hvalid arg c.1
      (rest := ((chunks ++ [(now, last)]).map Prod.snd).flatten) hs hc (by simp [hlast])
    obtain ⟨u, rs', hrun', v, hv, hframe, hnow, hsame'⟩ := ih hawaits (hfit t rs hrun)
    exact ⟨u, rs ++ rs', run_append hrun hrun', v, hv, hframe, hnow, hsame.trans hsame'⟩

end

end Sys2Proof.Machine
end

section
/-! PROOF. The obligation of 40_frame_buffer.md about garbage before a frame. -/

namespace Sys2Proof.Machine

/-- Settles O55: each FEED before the last drops garbage only and accepts nothing, so the last one finds the frame
alone in the buffer, as the FEED of the frame alone does. -/
theorem garbageThenFrameGivesTheFrame : Obligations.GarbageThenFrameGivesTheFrame := by
  intro s arg garbage frame chunks now last t t' rs rs' htail hok hheader hnofalse hstream hlast hfit hrun hrun'
  have hvalid : ValidFrame frame := ⟨hok, hheader⟩
  have hempty : s.fill.slice 0 s.fill.tail.toNat = [] := by
    rw [htail]
    rfl
  have hs : s.fill.Awaits ((chunks ++ [(now, last)]).map Prod.snd).flatten garbage frame :=
    ⟨fun k _ hk => absurd hk (by simp [htail]), by rwa [hempty], hnofalse⟩
  obtain ⟨u, qs, hu, hpromotes⟩ := feeds_promote hvalid arg now hlast hs hfit
  obtain ⟨u', qs', hu', hpromotes'⟩ := feed_promotes (garbage := []) hvalid arg now (s := s) (last := frame)
    (by rw [hempty]) (by simp [windowLen_eq, htail, hok.1])
  cases hu.symm.trans hrun
  cases hu'.symm.trans hrun'
  exact hpromotes.sameSolution hpromotes'

end Sys2Proof.Machine
end

section
/-! SUPPORT. What NOTIFY does with a verified frame, by its steps 2 to 5 (41_decoder.md R140): the promotion's SWAP and
LATCH on either side of the gate, when the gate is open, and the Solution of an emission. -/

namespace Sys2Proof.Machine

/-- Byte 56 is the tag and bytes 46 to 51 the extra region, low byte first (30_encoding.md R70; log 12). -/
theorem latch_pss_eq (s : State) : s.latch.pss =
    if s.cur.byte 56 = 32#8 then
      ⟨s.cur.byte 47 ++ s.cur.byte 46, s.cur.byte 49 ++ s.cur.byte 48, s.cur.byte 51 ++ s.cur.byte 50⟩
    else s.pss := rfl

section
variable (s : State)

/-- A promotion ends with Nothing or with an emission (R146, R147). -/
theorem promote_cases : s.promote = s.swap.latch.solveNothing ∨ s.promote = s.swap.latch.emit.solve := by
  unfold State.promote
  dsimp only
  split
  · exact .inr rfl
  · exact .inl rfl

theorem promote_err : s.promote.res.err = false := by
  obtain h | h := promote_cases s <;> rw [h]
  · rfl
  · exact (solve_kind_cases _).1

@[simp] theorem promote_which : s.promote.which = s.which.other := by
  obtain h | h := promote_cases s <;> simp [h]

@[simp] theorem cur_promote : s.promote.cur = s.fill := by
  obtain h | h := promote_cases s <;> simp [h]

@[simp] theorem fill_promote : s.promote.fill = FrameBuffer.blank s.draws := by
  obtain h | h := promote_cases s <;> simp [h]

theorem promote_pss : s.promote.pss = s.swap.latch.pss := by
  obtain h | h := promote_cases s <;> rw [h]
  · rfl
  · exact State.solve_pss _

@[simp] theorem promote_record : s.promote.record = s.record := by
  obtain h | h := promote_cases s <;> simp [h]

/-- What a promotion leaves unchanged. -/
theorem promote_frame : s.promote = { s with
    bufA := s.promote.bufA, bufB := s.promote.bufB, which := s.promote.which, pss := s.promote.pss
    lastEmit := s.promote.lastEmit, lastValid := s.promote.lastValid, res := s.promote.res
    draws := s.promote.draws } := by
  obtain h | h := promote_cases s <;> rw [h]
  · rfl
  · unfold State.solve
    split <;> rfl

/-- The gate is open before the first emission and from MIN_INTERVAL_US after the last one (R145, R146). -/
theorem gateOpen_iff : s.gateOpen = true ↔
    (s.lastValid = true → s.lastEmit.toNat + Config.minIntervalUs ≤ s.arg.now.toNat) :=
  gate_iff _ _ _ _ (by have := minIntervalUs_range; omega)

end

section
variable {s : State} {n : BitVec 6} (hn : n.toNat ≤ s.fill.windowLen) (hv : (s.fill.verify n.toNat s.draws).2 = true)
include hn hv

/-- NOTIFY of a verified frame inside the interval (R146). -/
theorem exec_notify_gated (hvalid : s.lastValid = true)
    (hnow : s.arg.now.toNat < s.lastEmit.toNat + Config.minIntervalUs) :
    exec (.notify n) s = .next (s.verified n).swap.latch.solveNothing := by
  have hgate : (s.verified n).swap.latch.gateOpen = false :=
    Bool.eq_false_iff.2 fun h => hnow.not_ge ((gateOpen_iff _).1 h hvalid)
  rw [exec_notify_verified hn hv]
  simp [State.promote, hgate]

/-- NOTIFY of a verified frame past the gate (R147). -/
theorem exec_notify_emits
    (hnow : s.lastValid = true → s.lastEmit.toNat + Config.minIntervalUs ≤ s.arg.now.toNat) :
    exec (.notify n) s = .next (s.verified n).swap.latch.emit.solve := by
  have hgate : (s.verified n).swap.latch.gateOpen = true := (gateOpen_iff _).2 hnow
  rw [exec_notify_verified hn hv]
  simp [State.promote, hgate]

end

/-- CLASSIFY with fewer than four status bits (R148). -/
theorem solve_of_few_bits {s : State} (h : popcount8 (s.cur.byte 39) < 4) :
    s.solve = s.respond fun r => { r with err := false, kind := 1#2, st := s.pss } := if_pos h

/-- CLASSIFY with four status bits or more (R148). -/
theorem solve_of_many_bits {s : State} (h : 4 ≤ popcount8 (s.cur.byte 39)) :
    s.solve = s.respond fun r => { r with
      err := false, kind := 2#2, st := s.pss
      dir := heading Config.headingSign s.yaw, enu := xf s.position s.ref } := if_neg h.not_gt

/-- After an emission a NOTIFY inside the interval can only raise an error or answer Nothing (R154). -/
theorem Effect.kind_of_gate_closed {s t : State} {n : BitVec 6} (h : Effect s (.notify n) t)
    (hvalid : s.lastValid = true) (hnow : s.arg.now.toNat < s.lastEmit.toNat + Config.minIntervalUs)
    (herr : t.res.err = false) : t.res.kind = 0#2 := by
  cases h with
  | answer d _ hnotify => exact absurd rfl (hnotify n)
  | countRange => simp at herr
  | unverified | gated => rfl
  | emit n hn hv hg => exact absurd ((gateOpen_iff _).1 hg hvalid) hnow.not_ge

end Sys2Proof.Machine
end

section
/-! SUPPORT. Runs of host commands and the time of the last emission (41_decoder.md R147, R154). -/

namespace Sys2Proof.Machine

/-- The first command of a run is one step, with it alone on the port. -/
theorem run_cons_some {c : Command} {cs : List Command} {s u : State} {rs : List Res}
    (h : run (c :: cs) s = some (u, rs)) :
    ∃ t qs, step { s with port := [c] } = .next t ∧ run cs t = some (u, qs) ∧ rs = t.res :: qs := by
  rw [run] at h
  split at h
  next t hstep =>
    obtain ⟨⟨u', qs⟩, hrun, heq⟩ := Option.map_eq_some_iff.1 h
    cases heq
    exact ⟨t, qs, hstep, hrun, rfl⟩
  next => cases h

theorem run_single_some {c : Command} {s t : State} {r : Res} (h : run [c] s = some (t, [r])) :
    step { s with port := [c] } = .next t ∧ r = t.res := by
  obtain ⟨t', qs, hstep, hrun, heq⟩ := run_cons_some h
  cases hrun
  cases heq
  exact ⟨hstep, rfl⟩

/-- The command neither resets nor emits: not a RESET, and a NOTIFY only if its answer is an error or Nothing. -/
def EmitsNothing (c : Command) (r : Res) : Prop :=
  decode c.word ≠ .legal .reset ∧ ∀ n, decode c.word = .legal (.notify n) → r.err = true ∨ r.kind = 0#2

/-- A command that neither resets nor emits keeps LAST_EMIT and LAST_VALID (10_state.md R29). -/
theorem step_keeps_emission {c : Command} {s t : State} (h : step { s with port := [c] } = .next t)
    (hc : EmitsNothing c t.res) : t.lastEmit = s.lastEmit ∧ t.lastValid = s.lastValid := by
  obtain ⟨hreset, hnotify⟩ := hc
  obtain hkept | ⟨c', rest, hp, hd, -⟩ | ⟨c', rest, n, hp, hd, herr, hkind, -⟩ :=
    (emissionTimeChangesOnlyByEmission _ t h).1
  · exact hkept
  · cases hp
    exact absurd hd hreset
  · cases hp
    have hzero : t.res.kind = 0#2 := (hnotify n hd).resolve_left (by simp [herr])
    simp [hzero] at hkind

theorem run_keeps_emission {cs : List Command} {s t : State} {rs : List Res} (h : run cs s = some (t, rs))
    (hcs : ∀ x ∈ cs.zip rs, EmitsNothing x.1 x.2) : t.lastEmit = s.lastEmit ∧ t.lastValid = s.lastValid := by
  induction cs generalizing s rs with
  | nil =>
    cases h
    exact ⟨rfl, rfl⟩
  | cons c cs ih =>
    obtain ⟨u, qs, hstep, hrun, rfl⟩ := run_cons_some h
    rw [List.zip_cons_cons, List.forall_mem_cons] at hcs
    obtain ⟨hemit, hvalid⟩ := step_keeps_emission hstep hcs.1
    obtain ⟨hemit', hvalid'⟩ := ih hrun hcs.2
    exact ⟨hemit'.trans hemit, hvalid'.trans hvalid⟩

end Sys2Proof.Machine
end

section
/-! PROOF. The obligations of 41_decoder.md about NOTIFY. -/

namespace Sys2Proof.Machine

/-- Settles O24: only the filling buffer, the record and RES are written. -/
theorem notifyUnverifiedGivesNothing : Obligations.NotifyUnverifiedGivesNothing := by
  intro s n hn hv
  exact ⟨_, exec_notify_unverified hn hv, rfl, rfl, by simp, by simp, rfl⟩

/-- Settles O25: SWAP and LATCH come before the gate, and what follows it writes neither a buffer nor PSS. -/
theorem notifyVerifiedSwapsAndLatches : Obligations.NotifyVerifiedSwapsAndLatches := by
  intro s n hn hv
  have hcur : (s.verified n).promote.cur = (s.fill.verify n.toNat s.draws).1 := by simp
  have hfill : (s.verified n).promote.fill = FrameBuffer.blank s.draws := by simp
  refine ⟨_, exec_notify_verified hn hv, promote_err _, promote_which _, hcur, ?_, ?_, ?_, fun a => ?_, ?_, ?_⟩
  · rw [hcur, verify_true hn hv]
    rfl
  · rw [hfill]
    rfl
  · rw [hfill]
    rfl
  · rw [hfill]
    exact BitVec.getLsbD_zero
  · rw [promote_pss, latch_pss_eq, State.cur_swap, cur_promote]
    rfl
  · rw [promote_record]
    exact promote_frame (s.verified n)

/-- Settles O26: a closed gate leaves out the emission step. -/
theorem notifyGatedGivesNothing : Obligations.NotifyGatedGivesNothing := by
  intro s n hn hv hvalid hnow
  exact ⟨_, exec_notify_gated hn hv hvalid hnow, rfl, rfl, rfl, hvalid, rfl, by simp⟩

/-- Settles O27: past the gate the emission step is followed by CLASSIFY, which reads the promoted frame's byte 39. -/
theorem notifyUninitialized : Obligations.NotifyUninitialized := by
  intro s n hn hv hnow hbits
  have he := exec_notify_emits hn hv hnow
  rw [solve_of_few_bits (by simpa using hbits)] at he
  exact ⟨_, he, rfl, rfl, rfl, rfl, rfl⟩

/-- Settles O28: the Solution's fields are read from the promoted frame. -/
theorem notifyData : Obligations.NotifyData := by
  intro s n hn hv hnow hbits
  have he := exec_notify_emits hn hv hnow
  rw [solve_of_many_bits (by simpa using hbits)] at he
  exact ⟨_, he, rfl, rfl, rfl, rfl, rfl, rfl, rfl⟩

/-- Settles O29: LAST_EMIT is the first NOTIFY's time and stays so up to the second one, which finds the gate closed. -/
theorem debounceSuppressesTheSecondFrame : Obligations.DebounceSuppressesTheSecondFrame := by
  intro s t u v c1 c2 cs r1 r2 rs n1 n2 hd1 hrun1 herr1 hkind1 hrun hcs hd2 hnow hrun2 herr2
  obtain ⟨hstep1, rfl⟩ := run_single_some hrun1
  obtain ⟨hstep2, rfl⟩ := run_single_some hrun2
  obtain ⟨hemit, hvalid⟩ := (emissionTimeChangesOnlyByEmission _ t hstep1).2 c1 [] n1 rfl hd1 herr1 hkind1
  obtain ⟨hemit', hvalid'⟩ := run_keeps_emission hrun hcs
  rw [stepRunsTheDecodedCommand _ c2 [] _ rfl hd2] at hstep2
  refine (effect_of_exec hstep2).kind_of_gate_closed (hvalid'.trans hvalid) ?_ herr2
  rwa [hemit', hemit]

end Sys2Proof.Machine
end

section
/-! SUPPORT. What rounding keeps (00_scope.md R13): the numbers that are binary64 values, and subtraction from a
nonzero word. -/

namespace Sys2Proof.Machine

/-- A number this small is far from the overflow edge. -/
theorem lt_overflowEdge {q : ℚ} (h : |q| ≤ 2 ^ 64) : |(q : ℝ)| < 2 ^ 1024 - 2 ^ 970 := by
  have hq : |(q : ℝ)| ≤ 2 ^ 64 := by exact_mod_cast h
  have hedge : (2 : ℝ) ^ 1024 = 2 ^ 970 * 2 ^ 54 := by rw [← pow_add]
  have hle : (2 : ℝ) ^ 64 ≤ 2 ^ 970 := pow_le_pow_right₀ one_le_two (by decide)
  rw [hedge]
  generalize (2 : ℝ) ^ 970 = half at hle ⊢
  linarith

theorem f64Finite_fl {q : ℚ} (h : |q| ≤ 2 ^ 64) : f64Finite (fl q) = true :=
  ((rounds_fl q).1 (lt_overflowEdge h)).1

/-- `fl` keeps a number of at most 53 bits. -/
theorem f64Val_fl_of_exact {q : ℚ} {m f : ℤ} (h : |q| ≤ 2 ^ 64) (hq : q = m * (2 : ℚ) ^ f) (hm : |m| < 2 ^ 53)
    (hf : -1074 ≤ f) : f64Val (fl q) = q := by
  obtain ⟨e, k, he, hk, hbits⟩ := roundBits_spec q.num.natAbs q.den_ne_zero
  rw [← abs_eq_natAbs_div_den] at he hk
  replace he := IsLastPlace.abs_iff.1 he
  obtain ⟨hk53, hk52⟩ := he.significand_bounds hk
  have hfin := not_le.1 (mt (he.infBits_le_iff hk).1 (lt_overflowEdge h).not_ge)
  have hu : (0 : ℝ) < 2 ^ e := by positivity
  have hn : RoundsToInt ((q : ℝ) / 2 ^ e) (signedInt (decide (q < 0)) k) :=
    .of_abs (by rwa [abs_div, abs_of_pos hu]) (by simp [div_lt_iff₀ hu])
  have hq' : (m : ℝ) * 2 ^ f = q := by rw [hq]; push_cast; rfl
  rw [fl, hbits, min_eq_right hfin.le, f64Val_f64Pack _ he.least hk53 hk52 hfin]
  refine Rat.cast_injective (α := ℝ) ?_
  push_cast
  obtain hlt | heq | ⟨heq, -⟩ := he.nearest hn hm hf
  · rw [hq', sub_self, abs_zero] at hlt
    exact absurd hlt (abs_nonneg _).not_gt
  · rw [← heq, hq']
  · rwa [hq', sub_self, abs_zero, abs_eq_zero, sub_eq_zero] at heq

/-- `fl` keeps the value of a word. -/
theorem f64Val_fl_f64Val {x : Binary64} (h : |f64Val x| ≤ 2 ^ 64) : f64Val (fl (f64Val x)) = f64Val x := by
  obtain ⟨m, f, hm, hf, hx⟩ := f64Val_eq_int_mul_zpow x
  exact f64Val_fl_of_exact h hx hm hf

theorem f64Finite_f64OfInt {v : ℤ} (h : |v| < 2 ^ 53) : f64Finite (f64OfInt v) = true :=
  f64Finite_fl (by exact_mod_cast (h.trans (by norm_num)).le)

/-- An integer of 53 bits is a binary64 value. -/
theorem f64Val_f64OfInt {v : ℤ} (h : |v| < 2 ^ 53) : f64Val (f64OfInt v) = v :=
  f64Val_fl_of_exact (by exact_mod_cast (h.trans (by norm_num)).le) (by simp) h (f := 0) (by decide)

/-- A difference from a nonzero word is rounded, a zero one included: equal words of one sign differ by +0. -/
theorem fsub_eq_fl {x y : Binary64} (hx : f64Finite x = true) (hy : f64Finite y = true) (h0 : f64Val x ≠ 0) :
    fsub x y = fl (f64Val x - f64Val y) := by
  rw [fsub_of_finite hx hy]
  split
  next h =>
    have heq : f64Val y = f64Val x := (sub_eq_zero.1 h).symm
    rw [h, f64Neg_eq_decide h0, f64Neg_eq_decide (heq.trans_ne h0), heq, Bool.and_not_self]
    rfl
  next => rfl

end Sys2Proof.Machine
end

section
/-! SUPPORT. The word fl(π), and the constants of HEADING, each fl(π) divided by a power of two and so exact
(41_decoder.md R149). -/

namespace Sys2Proof.Machine

/-- fl(π) in units of its last place, `2^-51`. -/
def piPlaces : ℕ := 7074237752028440

theorem flPi_eq_f64Pack : flPi = f64Pack false ((-51 + 1074 : ℤ).toNat * 2 ^ 52 + piPlaces) := by decide

/-- `2^-51` is the last place of π, which lies between 2 and 4. -/
theorem isLastPlace_pi : IsLastPlace Real.pi (-51) := by
  have h3 := Real.pi_gt_three
  have h4 := Real.pi_lt_four
  refine ⟨by decide, ?_, .inr ?_⟩ <;> rw [abs_of_pos Real.pi_pos] <;> norm_num <;> linarith

/-- The decimals of π, to 20 places, put it less than half a last place from fl(π). -/
theorem roundsToInt_pi : RoundsToInt (|Real.pi| / (2 : ℝ) ^ (-51 : ℤ)) piPlaces := by
  have hlo := Real.pi_gt_d20
  have hhi := Real.pi_lt_d20
  rw [abs_of_pos Real.pi_pos, piPlaces]
  refine .inl (abs_lt.2 ⟨?_, ?_⟩) <;> norm_num at hlo hhi ⊢ <;> linarith

theorem f64Finite_flPi : f64Finite flPi = true := by decide

theorem f64Val_flPi : f64Val flPi = piPlaces * (2 : ℚ) ^ (-51 : ℤ) := by
  rw [flPi_eq_f64Pack, f64Val_f64Pack false (by decide) (by decide) (.inr (by decide)) (by decide)]
  rfl

theorem f64Val_flPi_bounds : 3 < f64Val flPi ∧ f64Val flPi < 4 := by
  rw [f64Val_flPi, piPlaces]
  norm_num

/-- The quotient of fl(π) by a power of two is exact. -/
theorem fdiv_flPi_pow2 {k : ℕ} (hk : k < 53) : f64Finite (fdiv flPi (f64OfInt (2 ^ k))) = true ∧
    f64Val (fdiv flPi (f64OfInt (2 ^ k))) = f64Val flPi / 2 ^ k := by
  obtain ⟨hlo, hhi⟩ := f64Val_flPi_bounds
  have hpow : |(2 : ℤ) ^ k| < 2 ^ 53 := by
    rw [abs_of_pos (by positivity)]
    exact pow_lt_pow_right₀ one_lt_two hk
  have hval := f64Val_f64OfInt hpow
  push_cast at hval
  have hle : |f64Val flPi / 2 ^ k| ≤ 2 ^ 64 := by
    rw [abs_of_pos (by positivity)]
    exact (div_le_self (by linarith) (one_le_pow₀ one_le_two)).trans (by linarith)
  rw [fdiv_eq_fl f64Finite_flPi (f64Finite_f64OfInt hpow) (by linarith) (by rw [hval]; positivity), hval]
  refine ⟨f64Finite_fl hle, f64Val_fl_of_exact hle (m := piPlaces) (f := -51 - k) ?_ (by decide) (by omega)⟩
  rw [f64Val_flPi, zpow_sub₀ two_ne_zero, zpow_natCast, mul_div_assoc, Int.cast_natCast]

/-- The factor of the 90° term (R149). -/
def headingFactor : HeadingSign → ℚ
  | .plus => 1
  | .minus => -1

theorem headingZero_spec (sign : HeadingSign) : f64Finite (headingZero sign) = true ∧
    f64Val (headingZero sign) = headingFactor sign * f64Val flPi / 2 := by
  obtain ⟨hfin, hval⟩ := fdiv_flPi_pow2 (k := 1) (by decide)
  rw [pow_one, pow_one] at hval
  rw [pow_one] at hfin
  cases sign with
  | plus => exact ⟨hfin, by rw [headingZero, hval, headingFactor, one_mul]⟩
  | minus =>
    refine ⟨by rwa [headingZero, f64Finite_fneg], ?_⟩
    rw [headingZero, f64Val_fneg, hval, headingFactor]
    ring

theorem abs_headingZero (sign : HeadingSign) : |f64Val (headingZero sign)| = f64Val flPi / 2 := by
  have hpos : 0 < f64Val flPi / 2 := by linarith [f64Val_flPi_bounds.1]
  rw [(headingZero_spec sign).2, mul_div_assoc, abs_mul, abs_of_pos hpos]
  cases sign <;> simp [headingFactor]

theorem yawK_spec : f64Finite yawK = true ∧ f64Val yawK = f64Val flPi / 16384 := by
  have h := fdiv_flPi_pow2 (k := 14) (by decide)
  norm_num at h
  exact h

/-- The yaw term is rounded once, a zero one included: `K` is positive and the integer 0 converts to +0. -/
theorem fmul_yaw_eq_fl {yaw : ℤ} (h : |yaw| < 2 ^ 53) :
    fmul (f64OfInt yaw) yawK = fl (yaw * (f64Val flPi / 16384)) := by
  obtain ⟨hfin, hval⟩ := yawK_spec
  have hyaw := f64Val_f64OfInt h
  have hK : 0 < f64Val yawK := by rw [hval]; linarith [f64Val_flPi_bounds.1]
  rw [← hval]
  rcases eq_or_ne yaw 0 with rfl | h0
  · have hneg : f64Neg yawK = false := by simp [f64Neg_eq_decide hK.ne', hK.le]
    have hzero : f64Neg (f64OfInt 0) = false := by decide
    rw [fmul_of_finite (f64Finite_f64OfInt h) hfin, hyaw, hneg, hzero, Int.cast_zero, zero_mul, abs_zero]
    rfl
  · have h0' : (yaw : ℚ) ≠ 0 := by exact_mod_cast h0
    rw [fmul_eq_fl (f64Finite_f64OfInt h) hfin (by rw [hyaw]; positivity), hyaw]

/-- HEADING is the two roundings of R149, for every yaw of 16 bits. -/
theorem heading_eq_fl (sign : HeadingSign) {yaw : ℤ} (h : |yaw| ≤ 2 ^ 15) : heading sign yaw =
    fl (headingFactor sign * f64Val flPi / 2 - f64Val (fl (yaw * (f64Val flPi / 16384)))) := by
  obtain ⟨hlo, hhi⟩ := f64Val_flPi_bounds
  obtain ⟨hfin, hval⟩ := headingZero_spec sign
  have hyaw : |(yaw : ℚ)| ≤ 2 ^ 15 := by exact_mod_cast h
  have hterm : f64Finite (fl (yaw * (f64Val flPi / 16384))) = true := by
    refine f64Finite_fl ?_
    rw [abs_mul, abs_of_pos (show 0 < f64Val flPi / 16384 by linarith)]
    calc |(yaw : ℚ)| * (f64Val flPi / 16384) ≤ 2 ^ 15 * (4 / 16384) := by gcongr
      _ ≤ 2 ^ 64 := by norm_num
  have hzero : f64Val (headingZero sign) ≠ 0 := by
    rw [← abs_pos, abs_headingZero]
    linarith
  calc heading sign yaw = fsub (headingZero sign) (fl (yaw * (f64Val flPi / 16384))) := by
        rw [heading, fmul_yaw_eq_fl (h.trans_lt (by decide))]
    _ = fl (headingFactor sign * f64Val flPi / 2 - f64Val (fl (yaw * (f64Val flPi / 16384)))) := by
        rw [fsub_eq_fl hfin hterm hzero, hval]

/-- At yaw 0 HEADING is the 90° term. -/
theorem f64Val_heading_zero (sign : HeadingSign) :
    f64Val (heading sign 0) = headingFactor sign * f64Val flPi / 2 := by
  have hle : |f64Val (headingZero sign)| ≤ 2 ^ 64 := by
    rw [abs_headingZero]
    linarith [f64Val_flPi_bounds.2]
  have hterm : f64Val (fl 0) = 0 := f64Val_f64Pack_zero false
  rw [heading_eq_fl sign (by decide), Int.cast_zero, zero_mul, hterm, sub_zero, ← (headingZero_spec sign).2,
    f64Val_fl_f64Val hle]

end Sys2Proof.Machine
end

section
/-! PROOF. The obligations of 41_decoder.md about fl(π) and HEADING. -/

namespace Sys2Proof.Machine

/-- Settles O48: fl(π) is made of the last place of π and of the nearest whole number of such places. -/
theorem piIsCorrectlyRounded : Obligations.PiIsCorrectlyRounded := by
  have h := isLastPlace_pi.rounds roundsToInt_pi (neg := false) (by simp [Real.pi_pos.le])
  rwa [min_eq_right (by decide), ← flPi_eq_f64Pack] at h

/-- Settles O49: the yaw's conversion and the division by a power of two are exact, so HEADING rounds the product and
the difference alone. -/
theorem headingRoundsTwice : Obligations.HeadingRoundsTwice := by
  intro sign yaw
  have hyaw : |yaw.toInt| ≤ 2 ^ 15 := by
    have := yaw.le_toInt
    have := yaw.toInt_lt
    rw [abs_le]
    constructor <;> omega
  cases sign with
  | plus => exact ⟨heading_eq_fl .plus hyaw, f64Val_heading_zero .plus⟩
  | minus => exact ⟨heading_eq_fl .minus hyaw, f64Val_heading_zero .minus⟩

end Sys2Proof.Machine
end

section
/-! SUPPORT. Products and quotients with a zero word, the product with an integer, and the nearest integer of a word
(00_scope.md R13, 42_geodetic.md R185, R191). -/

namespace Sys2Proof.Machine

theorem zeroLike_cases (x : Binary64) : zeroLike x = 0#64 ∨ zeroLike x = 0x8000000000000000#64 := by
  unfold zeroLike
  cases f64Neg x
  · exact .inl rfl
  · exact .inr rfl

@[simp] theorem f64Val_zeroLike (x : Binary64) : f64Val (zeroLike x) = 0 := f64Val_f64Pack_zero _

@[simp] theorem f64Finite_zeroLike (x : Binary64) : f64Finite (zeroLike x) = true := f64Finite_f64Pack _ (by decide)

theorem f64Finite_zero : f64Finite 0#64 = true := by decide

theorem f64Neg_zero : f64Neg 0#64 = false := by decide

theorem f64Val_zero : f64Val 0#64 = 0 := f64Val_f64Pack_zero false

/-- A finite word times +0 is a zero with the word's sign. -/
theorem fmul_zero {x : Binary64} (hx : f64Finite x = true) : fmul x 0#64 = zeroLike x := by
  rw [fmul_of_finite hx f64Finite_zero, f64Val_zero, mul_zero, abs_zero, f64Neg_zero, Bool.bne_false]
  rfl

/-- +0 over a nonzero word, an infinity included, is a zero with the word's sign. -/
theorem zero_fdiv {y : Binary64} (hnan : f64NaN y = false) (h0 : f64Finite y = true → f64Val y ≠ 0) :
    fdiv 0#64 y = zeroLike y := by
  cases hy : f64Finite y with
  | true =>
    rw [fdiv_of_finite f64Finite_zero hy (h0 hy), f64Val_zero, zero_div, abs_zero, f64Neg_zero, Bool.false_bne]
    rfl
  | false =>
    have hinf : f64Inf y = true := by simp_all [f64Finite, f64NaN, f64Inf]
    simp [fdiv, hnan, hinf, f64NaN_of_finite f64Finite_zero, f64Inf_of_finite f64Finite_zero, f64Neg_zero, zeroLike]

/-- An integer of 53 bits times a positive word is rounded once, a zero product included: 0 converts to +0. -/
theorem fmul_f64OfInt_eq_fl {v : ℤ} (hv : |v| < 2 ^ 53) {y : Binary64} (hy : f64Finite y = true)
    (hpos : 0 < f64Val y) : fmul (f64OfInt v) y = fl (v * f64Val y) := by
  have hval := f64Val_f64OfInt hv
  rcases eq_or_ne v 0 with rfl | h0
  · have hneg : f64Neg y = false := by simp [f64Neg_eq_decide hpos.ne', hpos.le]
    have hzero : f64OfInt 0 = 0#64 := by decide
    rw [hzero, fmul_of_finite f64Finite_zero hy, f64Val_zero, hneg, f64Neg_zero, Int.cast_zero, zero_mul, abs_zero]
    rfl
  · have h0' : (v : ℚ) ≠ 0 := Int.cast_ne_zero.2 h0
    rw [fmul_eq_fl (f64Finite_f64OfInt hv) hy (by rw [hval]; positivity), hval]

/-- RNI rounds the absolute value and sets the sign. -/
theorem roundsToInt_rni (x : Binary64) : RoundsToInt (f64Val x) (rni x) := by
  have habs : ((f64Abs x : ℚ) : ℝ) = ((f64Abs x).num.toNat : ℝ) / (f64Abs x).den := by
    have h := abs_eq_natAbs_div_den (f64Abs x)
    have hnum := Rat.num_nonneg.2 (f64Abs_nonneg x)
    rw [abs_of_nonneg (Rat.cast_nonneg.2 (f64Abs_nonneg x))] at h
    rw [h, show (f64Abs x).num.toNat = (f64Abs x).num.natAbs by omega]
  have hround := roundsToInt_divNearestEven (f64Abs x).num.toNat (f64Abs x).den_pos
  rw [← habs] at hround
  cases hneg : f64Neg x with
  | false => simpa [f64Val, rni, hneg] using hround
  | true => simpa [f64Val, rni, hneg] using hround.neg

end Sys2Proof.Machine
end

section
/-! SUPPORT. The conversions of 42_geodetic.md at a zero difference and a zero ENU (R181, R188, R191). -/

namespace Sys2Proof.Machine

theorem dLat_eq_zero {p o : Wgs84} (h : p.lat = o.lat) : dLat p o = 0 := by rw [dLat, h, sub_self]

theorem dLon_eq_zero {p o : Wgs84} (h : p.lon = o.lon) : dLon p o = 0 := by rw [dLon, h, sub_self]

theorem abs_dAlt_lt (p o : Wgs84) : |dAlt p o| < 2 ^ 53 := by
  have := p.alt.le_toInt
  have := p.alt.toInt_lt
  have := o.alt.le_toInt
  have := o.alt.toInt_lt
  rw [dAlt, abs_lt]
  constructor <;> omega

theorem toRad_zero : toRad 0 = 0#64 := by decide +kernel

theorem f64Finite_altLsb : f64Finite altLsb = true := by decide +kernel

theorem f64Val_altLsb_pos : 0 < f64Val altLsb := by decide +kernel

theorem radToUnits_zeroLike (x : Binary64) : radToUnits (zeroLike x) = some 0 := by
  obtain h | h := zeroLike_cases x <;> rw [h] <;> decide +kernel

theorem upToUnits_zero : upToUnits 0#64 = some 0 := by decide +kernel

theorem int32?_toInt (v : BitVec 32) : int32? v.toInt = some v := by
  have := v.le_toInt
  have := v.toInt_lt
  rw [int32?, if_pos (by omega), BitVec.ofInt_toInt]

end Sys2Proof.Machine
end

section
/-! PROOF. The obligations of 42_geodetic.md. -/

namespace Sys2Proof.Machine

/-- Settles O44: TRANSFORM only answers, with XF of its operands. -/
theorem transformDrivesXf : Obligations.TransformDrivesXf :=
  ⟨by decide, fun _ => ⟨_, rfl, rfl, rfl, rfl⟩⟩

/-- Settles O45: FROMENU only answers, with INV of its operands, and without the parameter its word is refused. -/
theorem fromenuDrivesInv : Obligations.FromenuDrivesInv :=
  ⟨by decide, ⟨.noFromEnu, by decide⟩, fun _ => ⟨_, rfl, rfl, rfl, rfl⟩⟩

/-- Settles O53: RNI is `divNearestEven` on the fraction of the absolute value, and rounding to nearest even commutes
with the sign. -/
theorem rniIsToNearestEven : Obligations.RniIsToNearestEven := fun x _ => roundsToInt_rni x

/-- Settles O50: the difference of two altitudes is exact in binary64, so the product alone rounds; XF answers
`zeroLike` for a zero difference. -/
theorem xfUpIsExactAndZerosAreZeros : Obligations.XfUpIsExactAndZerosAreZeros := by
  intro p o
  refine ⟨fmul_f64OfInt_eq_fl (abs_dAlt_lt p o) f64Finite_altLsb f64Val_altLsb_pos, fun hlat => ?_, fun hlon => ?_⟩
  · simpa [xf, dLat_eq_zero hlat] using zeroLike_cases (Config.xfNorth p o)
  · simpa [xf, dLon_eq_zero hlon] using zeroLike_cases (Config.xfEast p o)

/-- Settles O51: REF_XF and XF share `up`, and a zero difference is the angle +0, whose tangent +0 makes the product
with the radius, or with the parallel, a zero. -/
theorem referenceTransformHasTheNamedProperties : Obligations.ReferenceTransformHasTheNamedProperties := by
  intro l p o htan hradius hparallel
  refine ⟨rfl, fun hlat => ?_, fun hlon => ?_⟩
  · have hnorth : (refXf l p o).north = zeroLike (refRadius l o) := by
      rw [refXf, dLat_eq_zero hlat, toRad_zero, htan, fmul_zero hradius]
    simp [hnorth]
  · have heast : (refXf l p o).east = zeroLike (refParallel l o) := by
      rw [refXf, dLon_eq_zero hlon, toRad_zero, htan, fmul_zero hparallel]
    simp [heast]

/-- Settles O52: both quotients are zeros, ATAN keeps a zero and its sign, and each zero converts to the integer 0. -/
theorem referenceInverseOfZeroIsTheOffset : Obligations.ReferenceInverseOfZeroIsTheOffset := by
  intro l o hplus hminus hradius hparallel hradius0 hparallel0
  have hatan (x : Binary64) : l.atan (zeroLike x) = zeroLike x := by
    obtain h | h := zeroLike_cases x <;> rw [h]
    · exact hplus
    · exact hminus
  simp [refInv, f64Finite_zero, zero_fdiv hradius hradius0, zero_fdiv hparallel hparallel0, hatan,
    radToUnits_zeroLike, upToUnits_zero, int32?_toInt]

end Sys2Proof.Machine
end

section
/-! SUPPORT. The STATUS word bit by bit and an empty buffer's DEF bits (10_state.md R30, R32). -/

namespace Sys2Proof.Machine

/-- A flag placed at bit `k` of a word is that bit and no other. -/
theorem getLsbD_flagWord_shiftLeft (c : Bool) {k : Nat} (hk : k < 32) (b : Nat) :
    (flagWord c <<< k).getLsbD b = (decide (b = k) && c) := by
  rcases lt_trichotomy b k with hlt | rfl | hgt
  · simp [hlt, hlt.ne]
  · cases c <;> simp [flagWord, hk]
  · have hsub : b - k ≠ 0 := by omega
    cases c <;> simp [flagWord, hgt.ne', BitVec.getLsbD_one, hsub]

/-- A tail placed at bit 8 of a word is bits 13:8. -/
theorem getLsbD_tail_shiftLeft (t : BitVec 6) (b : Nat) :
    (t.setWidth 32 <<< 8).getLsbD b = (decide (8 ≤ b) && t.getLsbD (b - 8)) := by
  rw [BitVec.getLsbD_shiftLeft, BitVec.getLsbD_setWidth]
  by_cases hb : b < 14
  · have h32 : b < 32 := by omega
    have hsub : b - 8 < 32 := by omega
    simp [h32, hsub, ← decide_not]
  · have hzero : t.getLsbD (b - 8) = false := BitVec.getLsbD_of_ge t (b - 8) (by omega)
    simp [hzero]

/-- Every bit of the STATUS word is a flag, a bit of TAIL[FILL] or 0 (10_state.md R30). -/
theorem getLsbD_statusWord (s : State) (b : Nat) : s.statusWord.getLsbD b =
    (decide (b = 0) && s.errIllegal || decide (b = 1) && s.errWindow || decide (b = 2) && s.errCount ||
      decide (8 ≤ b) && s.fill.tail.getLsbD (b - 8) || decide (b = 16) && s.which.bit ||
      decide (b = 17) && s.lastValid) := by
  have hillegal := getLsbD_flagWord_shiftLeft s.errIllegal (k := 0) (by decide) b
  rw [BitVec.shiftLeft_zero] at hillegal
  simp only [State.statusWord, BitVec.getLsbD_or, hillegal, getLsbD_tail_shiftLeft,
    getLsbD_flagWord_shiftLeft _ (show 1 < 32 by decide), getLsbD_flagWord_shiftLeft _ (show 2 < 32 by decide),
    getLsbD_flagWord_shiftLeft _ (show 16 < 32 by decide), getLsbD_flagWord_shiftLeft _ (show 17 < 32 by decide)]

/-- The TAIL field of the STATUS word. -/
theorem extractLsb'_statusWord_tail (s : State) : s.statusWord.extractLsb' 8 6 = s.fill.tail := by
  refine BitVec.eq_of_getLsbD_eq fun i hi => ?_
  have h16 : 8 + i ≠ 16 := by omega
  have h17 : 8 + i ≠ 17 := by omega
  have h1 : 8 + i ≠ 1 := by omega
  have h2 : 8 + i ≠ 2 := by omega
  simp [getLsbD_statusWord, hi, h1, h2, h16, h17]

/-- The bits of the STATUS word without a field read 0. -/
theorem getLsbD_statusWord_reserved (s : State) {b : Nat} (hb : (3 ≤ b ∧ b ≤ 7) ∨ b = 14 ∨ b = 15 ∨ 18 ≤ b) :
    s.statusWord.getLsbD b = false := by
  have hflags : b ≠ 0 ∧ b ≠ 1 ∧ b ≠ 2 ∧ b ≠ 16 ∧ b ≠ 17 := by omega
  have htail : 8 ≤ b → s.fill.tail.getLsbD (b - 8) = false := fun h8 => BitVec.getLsbD_of_ge _ _ (by omega)
  simpa [getLsbD_statusWord, hflags] using htail

@[simp] theorem bit_eq_beq_one (w : BufId) : w.bit = (w == .one) := by
  cases w <;> rfl

@[simp] theorem isDef_blank (stamp a : Nat) : (FrameBuffer.blank stamp).isDef a = false := BitVec.getLsbD_zero

end Sys2Proof.Machine
end

section
/-! PROOF. The obligations of 43_control.md. -/

namespace Sys2Proof.Machine

/-- Settles O34: RDSTAT only answers, and each clause about its word is a bit of the STATUS word. -/
theorem rdstatReadsTheStatusWord : Obligations.RdstatReadsTheStatusWord := by
  refine ⟨by decide, fun s => ⟨_, rfl, rfl, rfl, ?_⟩⟩
  rw [State.respond_res]
  have htail := extractLsb'_statusWord_tail s
  refine ⟨?_, ?_, ?_, htail, fun hle h63 => ?notFull, ?_, ?_, fun b => getLsbD_statusWord_reserved s⟩
  case notFull =>
    rw [htail.symm.trans h63] at hle
    exact absurd hle (by decide)
  all_goals
    rw [getLsbD_statusWord]
    simp

/-- Settles O32: RESET is `State.restart`, which blanks both buffers, and an answer. -/
theorem resetRestoresTheEngine : Obligations.ResetRestoresTheEngine :=
  ⟨by decide, fun _ => ⟨_, rfl, rfl, rfl, rfl, fun _ => ⟨isDef_blank _ _, isDef_blank _ _⟩,
    rfl, rfl, rfl, rfl, rfl, rfl, rfl, rfl, rfl, rfl, rfl⟩⟩

end Sys2Proof.Machine
end

section
/-! SUPPORT. A command that raises an error, and what any command does to the fault record (60_exceptions.md R233 to
R237, 93_implementation_defined.md Part 1). -/

namespace Sys2Proof.Machine

/-- The frame of ILLEGAL_CMD (60_exceptions.md R234). -/
theorem raise_illegalCmd (s : State) : s.raise .illegalCmd = { s with
    errIllegal := true, record := s.record ++ [.error .illegalCmd]
    res := (s.raise .illegalCmd).res, draws := (s.raise .illegalCmd).draws } := by
  simp [State.raise, State.note, State.respond]

/-- The frame of COUNT_RANGE (R236). -/
theorem raise_countRange (s : State) (n : BitVec 6) : s.raise (.countRange n) = { s with
    errCount := true, record := s.record ++ [.error (.countRange n)]
    res := (s.raise (.countRange n)).res, draws := (s.raise (.countRange n)).draws } := by
  simp [State.raise, State.note, State.respond]

/-- An error sets its own flag and keeps the others (R232, R233). -/
theorem raise_flags (s : State) (e : CommandError) :
    ((s.raise e).errIllegal, (s.raise e).errWindow, (s.raise e).errCount) = (match e with
      | .illegalCmd => (true, s.errWindow, s.errCount)
      | .windowRange _ => (s.errIllegal, true, s.errCount)
      | .countRange _ => (s.errIllegal, s.errWindow, true)) := by
  cases e <;> simp

theorem step_of_illegal {s : State} {c : Command} {rest : List Command} {why : Illegal} (hp : s.port = c :: rest)
    (hd : decode c.word = .illegal why) : step s = .next ((s.accept c rest).raise .illegalCmd) := by
  simp only [step, hp, hd]

theorem exec_notify_beyond {s : State} {n : BitVec 6} (h : s.fill.windowLen < n.toNat) :
    exec (.notify n) s = .next (s.raise (.countRange n)) := by
  obtain ⟨-, he⟩ | ⟨hin, -⟩ | ⟨hin, -⟩ | ⟨hin, -⟩ := exec_notify_cases n s
  · exact he
  all_goals exact absurd h hin.not_gt

/-- Every instruction answers a next state. -/
theorem exec_next (i : Instr) (s : State) : ∃ t, exec i s = .next t := by
  cases i with
  | reset | getbuf | transform | fromenu | rdstat => exact ⟨_, rfl⟩
  | wrbuf k v => obtain ⟨-, he⟩ | ⟨-, he⟩ := exec_wrbuf_cases k v s <;> exact ⟨_, he⟩
  | notify n =>
    rcases le_or_gt n.toNat s.fill.windowLen with hin | hout
    · exact (exec_notify_inside hin).imp fun _ h => h.1
    · exact ⟨_, exec_notify_beyond hout⟩

/-- An instruction that answers RES.ERR has raised an error and done nothing else (R233). -/
theorem raised_of_exec_err {i : Instr} {s t : State} (h : exec i s = .next t) (herr : t.res.err = true) :
    ∃ e, t = s.raise e := by
  cases i with
  | reset | getbuf | transform | fromenu | rdstat => cases h; cases herr
  | wrbuf k v =>
    obtain ⟨-, he⟩ | ⟨-, he⟩ := exec_wrbuf_cases k v s <;> cases he.symm.trans h
    · exact ⟨_, rfl⟩
    · cases herr
  | notify n =>
    rcases le_or_gt n.toNat s.fill.windowLen with hin | hout
    · obtain ⟨t', he, hclean, -⟩ := exec_notify_inside hin
      cases he.symm.trans h
      exact absurd (hclean.symm.trans herr) (by decide)
    · cases (exec_notify_beyond hout).symm.trans h
      exact ⟨_, rfl⟩

/-- A step that takes a command and answers RES.ERR has raised an error and done nothing else. -/
theorem raised_of_step_err {s t : State} (hp : s.port ≠ []) (h : step s = .next t) (herr : t.res.err = true) :
    ∃ c rest e, t = (s.accept c rest).raise e := by
  obtain ⟨hidle, -⟩ | ⟨c, rest, i, -, -, he⟩ | ⟨c, rest, why, -, -, he⟩ := step_cases s
  · exact absurd hidle hp
  · exact ⟨c, rest, raised_of_exec_err (he.symm.trans h) herr⟩
  · cases he.symm.trans h
    exact ⟨c, rest, _, rfl⟩

/-- No effect takes an entry from the record (92_eei_decisions.md D32). -/
theorem Effect.record_prefix {i : Instr} {s t : State} (h : Effect s i t) : s.record <+: t.record := by
  cases h with
  | restart => exact List.prefix_rfl
  | _ => simp

/-- A NOTIFY that answers without error keeps the error flags (R237). -/
theorem Effect.errorFlags_of_notify {n : BitVec 6} {s t : State} (h : Effect s (.notify n) t)
    (herr : t.res.err = false) :
    t.errIllegal = s.errIllegal ∧ t.errWindow = s.errWindow ∧ t.errCount = s.errCount := by
  cases h with
  | answer d _ hnotify => exact absurd rfl (hnotify n)
  | countRange => simp at herr
  | unverified | gated | emit => simp

/-- The first undefined byte of the window (41_decoder.md R141; log 6). -/
theorem firstUndef_eq_some {f : FrameBuffer} {n j : Nat} (hj : j < n) (hundef : f.isDef (f.tail.toNat + j) = false)
    (hdef : ∀ k, k < j → f.isDef (f.tail.toNat + k) = true) : f.firstUndef n = some (f.tail.toNat + j) := by
  simp only [FrameBuffer.firstUndef, List.find?_range'_eq_some, List.mem_range'_1, Bool.not_not]
  refine ⟨by simpa using hundef, by omega, fun a hlo hhi => ?_⟩
  obtain ⟨k, rfl⟩ := Nat.exists_eq_add_of_le hlo
  exact hdef k (by omega)

end Sys2Proof.Machine
end

section
/-! SUPPORT. The error flags replaced by others: every operation but the read of the STATUS word goes the same way
(60_exceptions.md R241). -/

namespace Sys2Proof.Machine

/-- The state with these error flags. -/
def State.withFlags (s : State) (x y z : Bool) : State := { s with errIllegal := x, errWindow := y, errCount := z }

section
variable (s : State) (x y z : Bool)

theorem raise_withFlags (e : CommandError) : (s.withFlags x y z).raise e = (s.raise e).withFlags
    (x || (e matches .illegalCmd)) (y || (e matches .windowRange _)) (z || (e matches .countRange _)) := rfl

theorem solve_withFlags : (s.withFlags x y z).solve = s.solve.withFlags x y z := by
  rcases lt_or_ge (popcount8 (s.cur.byte 39)) 4 with hfew | hmany
  · rw [solve_of_few_bits hfew, solve_of_few_bits (s := s.withFlags x y z) hfew]
    rfl
  · rw [solve_of_many_bits hmany, solve_of_many_bits (s := s.withFlags x y z) hmany]
    rfl

/-- The gate and the rest of a promotion read no flag (41_decoder.md R140). -/
theorem promote_withFlags : (s.withFlags x y z).promote = s.promote.withFlags x y z := by
  have hlatch : (s.withFlags x y z).swap.latch = s.swap.latch.withFlags x y z := rfl
  have hgate : (s.swap.latch.withFlags x y z).gateOpen = s.swap.latch.gateOpen := rfl
  simp only [State.promote, hlatch, hgate]
  split
  · exact solve_withFlags s.swap.latch.emit x y z
  · rfl

end

/-- RDSTAT apart, an instruction does with other error flags what it does with these (R241). -/
theorem exec_withFlags {i : Instr} {s t : State} (x y z : Bool) (hi : i ≠ .rdstat) (h : exec i s = .next t) :
    ∃ x' y' z', exec i (s.withFlags x y z) = .next (t.withFlags x' y' z') := by
  cases i with
  | rdstat => exact absurd rfl hi
  | reset => cases h; exact ⟨false, false, false, rfl⟩
  | getbuf | transform | fromenu => cases h; exact ⟨x, y, z, rfl⟩
  | wrbuf k v =>
    rcases le_or_gt s.fill.windowLen k.toNat with hout | hin
    · cases (exec_wrbuf_beyond v hout).symm.trans h
      exact ⟨_, _, _, exec_wrbuf_beyond (s := s.withFlags x y z) v hout⟩
    · cases (exec_wrbuf_inside v hin).symm.trans h
      exact ⟨x, y, z, exec_wrbuf_inside (s := s.withFlags x y z) v hin⟩
  | notify n =>
    rcases lt_or_ge s.fill.windowLen n.toNat with hout | hin
    · cases (exec_notify_beyond hout).symm.trans h
      exact ⟨_, _, _, exec_notify_beyond (s := s.withFlags x y z) hout⟩
    · cases hv : (s.fill.verify n.toNat s.draws).2
      · cases (exec_notify_unverified hin hv).symm.trans h
        exact ⟨x, y, z, exec_notify_unverified (s := s.withFlags x y z) hin hv⟩
      · cases (exec_notify_verified hin hv).symm.trans h
        refine ⟨x, y, z, ?_⟩
        rw [exec_notify_verified (s := s.withFlags x y z) hin hv]
        exact congrArg _ (promote_withFlags (s.verified n) x y z)

end Sys2Proof.Machine
end

section
/-! PROOF. The obligations of 60_exceptions.md. -/

namespace Sys2Proof.Machine

/-- Settles O2: the step's clause for an empty port. -/
theorem idleStepKeepsTheState : Obligations.IdleStepKeepsTheState := by
  intro s hp
  simp only [step, hp]

/-- Settles O3: the decoder refuses exactly the illegal words, and the step raises ILLEGAL_CMD for what it refuses. -/
theorem illegalWordRaisesIllegalCmd : Obligations.IllegalWordRaisesIllegalCmd := by
  intro s c rest hp hw
  obtain ⟨why, hd⟩ := (decodeRefusesExactlyIllegalWords Config.hasFromEnu c.word).2 hw
  exact ⟨_, step_of_illegal hp hd, rfl, raise_illegalCmd (s.accept c rest)⟩

/-- Settles O9: a step is idle, an instruction, or ILLEGAL_CMD, and each answers. -/
theorem everyStepAnswersANextState : Obligations.EveryStepAnswersANextState := by
  intro s
  obtain ⟨-, he⟩ | ⟨c, rest, i, -, -, he⟩ | ⟨c, rest, why, -, -, he⟩ := step_cases s
  · exact ⟨_, he⟩
  · rw [he]
    exact exec_next i _
  · exact ⟨_, he⟩

/-- Settles O22: beyond the window NOTIFY only raises COUNT_RANGE. -/
theorem notifyBeyondTheWindowRaises : Obligations.NotifyBeyondTheWindowRaises := by
  intro s n hn
  exact ⟨_, exec_notify_beyond hn, rfl, raise_countRange s n⟩

/-- Settles O23: the record gains what the search for an undefined byte finds, and neither Nothing nor an emission
touches a flag. -/
theorem notifyRecordsHostUndef : Obligations.NotifyRecordsHostUndef := by
  intro s n hn
  obtain ⟨t, he, herr, hrecord⟩ := exec_notify_inside (s := s) hn
  obtain ⟨hillegal, hwindow, hcount⟩ := (effect_of_exec he).errorFlags_of_notify herr
  refine ⟨t, he, herr, hillegal, hwindow, hcount, fun hdef => ?_, fun j hj hundef hdef => ?_⟩
  · have hnone : s.fill.firstUndef n.toNat = none := firstUndef_eq_none.2 fun j hlo hhi => by
      obtain ⟨k, rfl⟩ := Nat.exists_eq_add_of_le hlo
      exact hdef k (by omega)
    simpa [hnone] using hrecord
  · simpa [firstUndef_eq_some hj hundef hdef] using hrecord

/-- Settles O35: a command that answers RES.ERR is a `State.raise`, which touches one flag. -/
theorem errorsChangeNothingElse : Obligations.ErrorsChangeNothingElse := by
  intro s t hp h herr
  obtain ⟨c, rest, e, rfl⟩ := raised_of_step_err hp h herr
  exact ⟨e, rfl, rfl, raise_flags (s.accept c rest) e⟩

/-- Settles O37: with other flags an instruction's next state is the same but for its flags. -/
theorem errorFlagsDoNotInfluenceCommands : Obligations.ErrorFlagsDoNotInfluenceCommands := by
  intro i s s' t' x y z hi hs ht
  obtain ⟨x', y', z', he⟩ := exec_withFlags x y z hi hs
  cases he.symm.trans ht
  rfl

/-- Settles O38: an effect appends to the record or keeps it, and an illegal word appends to it. -/
theorem faultRecordOnlyGrows : Obligations.FaultRecordOnlyGrows := by
  intro s t h
  obtain ⟨-, rfl⟩ | ⟨c, rest, i, -, -, he⟩ | ⟨c, rest, why, -, -, rfl⟩ := step_next_cases h
  · exact List.prefix_rfl
  · exact he.record_prefix
  · exact List.prefix_append _ _

end Sys2Proof.Machine
end

section
/-! PROOF. The obligations of 70_reset_and_hazards.md. -/

namespace Sys2Proof.Machine

/-- RESET leaves the power-on state but for the drawing behind each buffer's unspecified bytes, the fault record and
the model's own fields (R261, 60_exceptions.md R233). -/
theorem restart_eq_powerOn (s : State) : s.restart = { State.reset with
    bufA := { State.reset.bufA with stamp := s.draws }
    bufB := { State.reset.bufB with stamp := s.draws + 1 }
    record := s.record, port := s.port, arg := s.arg, res := s.res, draws := s.draws + 1 } := rfl

/-- Settles O33: RESET is `State.restart`, the power-on state in these elements, and an answer, which writes none. -/
theorem powerOnEqualsReset : Obligations.PowerOnEqualsReset := by
  intro s t h
  have ht : t = s.restart.respond fun r => { r with err := false } := by cases h; rfl
  simp [ht, restart_eq_powerOn]

end Sys2Proof.Machine
end

section
/-! PROOF. The decoding vectors of 95_test_vectors.md. -/

namespace Sys2Proof

/-- Settles O8: a legal vector is the encoded word of its instruction, and each illegal one is refused for the reason
the spec's vector gives. -/
theorem sampleWordsDecode : Obligations.SampleWordsDecode := by
  intro h
  have legal (i : Instr) (hwf : i.wfWith h = true) : decodeWith h (encode i) = .legal i := decodeOfEncode h i hwf
  refine ⟨legal .reset rfl, legal .getbuf rfl, legal (.wrbuf 0#6 0xBD#8) rfl, legal (.wrbuf 63#6 0#8) rfl,
    legal (.notify 0#6) rfl, legal (.wrbuf 63#6 0xFF#8) rfl, legal (.notify 63#6) rfl, legal .transform rfl,
    decodeOfEncode true .fromenu rfl, rfl, legal .rdstat rfl, ?_⟩
  simp only [List.forall_mem_cons]
  exact ⟨⟨.reservedOp, rfl⟩, ⟨.dataField, rfl⟩, ⟨.idxField, rfl⟩, ⟨.reservedField, rfl⟩, ⟨.reservedField, rfl⟩,
    ⟨.dataField, rfl⟩, ⟨.reservedOp, rfl⟩, ⟨.reservedOp, rfl⟩, ⟨.reservedField, rfl⟩, List.forall_mem_nil _⟩

end Sys2Proof
end
